-- ==== Sys2Proof/Word.lean ====
section
/-! DEFINITION. The machine's words: the 32-bit bus word (20 R52), bytes of an instruction word, and the
widths the spec fixes. Everything is unsigned (00 R9). -/
namespace Sys2Proof

/-- A bus word: every transaction moves exactly one of these (20 R52). -/
abbrev Word := BitVec 32

/-- A byte of an instruction word as the model lays one out (log entry 8). -/
abbrev Byte := BitVec 8

/-- A glyph code: the 5-bit index into the segment decoder ROM (00 R14). -/
abbrev Glyph := BitVec 5

/-- A pattern: bit j is segment j in the order A, B, C, D, E, F, G, DP, COLON (10 R22). -/
abbrev Pattern := BitVec 9

/-- A whole frame: five slots of a glyph code and a decimal-point flag (10 R23). -/
abbrev Frame := BitVec 30

/-- A 12-bit sample code (43 R170). -/
abbrev Sample := BitVec 12

end Sys2Proof
end

