-- ==== Sys2Proof/Syntax.lean ====
section
/-! DEFINITION. The bus transactions as instructions: one constructor per row of spec/opcode_table.json
(30 R74, R75), and the transaction record of 20 R51 that the host presents. -/
namespace Sys2Proof

/-- A bus transaction as the host presents it (20 R51): `wdata` is meaningful only when `we` is set. -/
structure Txn where
  we    : Bool
  off   : BitVec 8
  wdata : Word
  deriving DecidableEq, Repr

/-- The commands. An operand is exactly the bits its row of the table leaves free: the glyph code or the
word index of an offset, `we` where the row takes both directions, and the data word of a write. -/
inductive Instr where
  /-- FRAME_RD, CMD 0x000 (41 R124). -/
  | frameRd
  /-- FRAME_WR, CMD 0x100 (41 R121, R122). -/
  | frameWr (wdata : Word)
  /-- THRESH_RD, CMD 0x004 (43 R173). -/
  | threshRd
  /-- THRESH_WR, CMD 0x104 (43 R171, R172). -/
  | threshWr (wdata : Word)
  /-- SAMPLE_RD, CMD 0x008 (43 R178). -/
  | sampleRd
  /-- SAMPLE_WR, CMD 0x108 (43 R174, R175, R176). -/
  | sampleWr (wdata : Word)
  /-- CTRL_RD, CMD 0x00C (44 R202). -/
  | ctrlRd
  /-- CTRL_WR, CMD 0x10C (44 R200, R207). -/
  | ctrlWr (wdata : Word)
  /-- STATUS_RD, CMD 0x010 (44 R203). -/
  | statusRd
  /-- STATUS_WR, CMD 0x110 (44 R204). -/
  | statusWr (wdata : Word)
  /-- SCAN_RD, CMD 0x014 (42 R149). -/
  | scanRd
  /-- SNAP_RD, CMD 0x018 (41 R125). -/
  | snapRd
  /-- ROM_RD, CMD 0 1ggg gg00 (40 R104). -/
  | romRd (g : Glyph)
  /-- Misaligned with off[1:0] = 1; `word` is off[7:2] (30 R75 (a)). -/
  | illegalMisaligned1 (we : Bool) (word : BitVec 6) (wdata : Word)
  /-- Misaligned with off[1:0] = 2 (30 R75 (a)). -/
  | illegalMisaligned2 (we : Bool) (word : BitVec 6) (wdata : Word)
  /-- Misaligned with off[1:0] = 3 (30 R75 (a)). -/
  | illegalMisaligned3 (we : Bool) (word : BitVec 6) (wdata : Word)
  /-- SCAN_WR, CMD 0x114 (30 R75 (b)). -/
  | illegalScanWr (wdata : Word)
  /-- SNAP_WR, CMD 0x118 (30 R75 (b)). -/
  | illegalSnapWr (wdata : Word)
  /-- ROM_WR, CMD 1 1ggg gg00 (30 R75 (b)). -/
  | illegalRomWr (g : Glyph) (wdata : Word)
  /-- Unmapped offset 0x1C (30 R75 (c)). -/
  | illegalUnmapped1C (we : Bool) (wdata : Word)
  /-- Unmapped offsets 0x20 to 0x3C; `word` is off[4:2] (30 R75 (c)). -/
  | illegalUnmapped20To3C (we : Bool) (word : BitVec 3) (wdata : Word)
  /-- Unmapped offsets 0x40 to 0x7C; `word` is off[5:2] (30 R75 (c)). -/
  | illegalUnmapped40To7C (we : Bool) (word : BitVec 4) (wdata : Word)
  deriving DecidableEq, Repr

end Sys2Proof
end

