-- ==== Sys2Proof/WellFormed.lean ====
section
/-! DEFINITION. Which instruction terms stand for a command. The operand types already hold every field to
its width, so one check remains: a read carries no data word ("`wdata` is meaningful only when `we = 1`",
20 R51), and its term holds 0 there. -/
namespace Sys2Proof

/-- A transaction that does not write has no data word. -/
def readCarriesNoData (we : Bool) (wdata : Word) : Bool := we || wdata == 0

/-- The well-formedness check of an instruction term. -/
def Instr.wellFormed : Instr → Bool
  | .frameRd => true
  | .frameWr _ => true
  | .threshRd => true
  | .threshWr _ => true
  | .sampleRd => true
  | .sampleWr _ => true
  | .ctrlRd => true
  | .ctrlWr _ => true
  | .statusRd => true
  | .statusWr _ => true
  | .scanRd => true
  | .snapRd => true
  | .romRd _ => true
  | .illegalMisaligned1 we _ wdata => readCarriesNoData we wdata
  | .illegalMisaligned2 we _ wdata => readCarriesNoData we wdata
  | .illegalMisaligned3 we _ wdata => readCarriesNoData we wdata
  | .illegalScanWr _ => true
  | .illegalSnapWr _ => true
  | .illegalRomWr _ _ => true
  | .illegalUnmapped1C we wdata => readCarriesNoData we wdata
  | .illegalUnmapped20To3C we _ wdata => readCarriesNoData we wdata
  | .illegalUnmapped40To7C we _ wdata => readCarriesNoData we wdata

end Sys2Proof
end

