-- ==== Sys2Proof/Decode.lean ====
section
/-! DEFINITION. Decoding: from a transaction to its command by the table of 30 R74 and R75, and from the
bytes of an instruction word to a transaction (the byte layout is the model's own, log entry 8). After it
the encoder, written from the same table. -/
namespace Sys2Proof

/-- Why a decoder rejects. -/
inductive DecodeError where
  /-- Fewer bytes than one transaction takes. -/
  | tooShort
  /-- A bit above the 41 bits of a transaction is set. -/
  | paddingNotZero
  /-- No row of the table matches: it never happens (every one of the 512 commands matches a row). -/
  | noRow
  deriving DecidableEq, Repr

/-- A command `CMD`: `we` is bit 8, `off` bits 7 to 0 (30 R70). -/
abbrev Cmd := BitVec 9

/-- The command of a transaction (30 R71). -/
def Txn.cmd (t : Txn) : Cmd := BitVec.ofBool t.we ++ t.off

/-- `CMD[8]` (30 R71). -/
def Cmd.we (c : Cmd) : Bool := c.getLsbD 8

/-- `CMD[7:0]` (30 R71). -/
def Cmd.off (c : Cmd) : BitVec 8 := c.extractLsb' 0 8

/-- The data word an instruction term keeps: none (0) for a read (20 R51). -/
def keptData (c : Cmd) (wdata : Word) : Word := if c.we then wdata else 0

/-- One row of the opcode table: it matches the commands that agree with `pattern` on the bits of `mask`. -/
structure Row where
  mnemonic : String
  pattern  : Cmd
  mask     : Cmd
  build    : Cmd → Word → Instr

/-- A row matches a command (the match and mask columns of 30 R74). -/
def Row.matches (r : Row) (c : Cmd) : Bool := c &&& r.mask == r.pattern

/-- The legal commands, in the order of 30 R74. -/
def legalRows : List Row := [
  ⟨"FRAME_RD",  0x000, 0x1FF, fun _ _ => .frameRd⟩,
  ⟨"FRAME_WR",  0x100, 0x1FF, fun _ w => .frameWr w⟩,
  ⟨"THRESH_RD", 0x004, 0x1FF, fun _ _ => .threshRd⟩,
  ⟨"THRESH_WR", 0x104, 0x1FF, fun _ w => .threshWr w⟩,
  ⟨"SAMPLE_RD", 0x008, 0x1FF, fun _ _ => .sampleRd⟩,
  ⟨"SAMPLE_WR", 0x108, 0x1FF, fun _ w => .sampleWr w⟩,
  ⟨"CTRL_RD",   0x00C, 0x1FF, fun _ _ => .ctrlRd⟩,
  ⟨"CTRL_WR",   0x10C, 0x1FF, fun _ w => .ctrlWr w⟩,
  ⟨"STATUS_RD", 0x010, 0x1FF, fun _ _ => .statusRd⟩,
  ⟨"STATUS_WR", 0x110, 0x1FF, fun _ w => .statusWr w⟩,
  ⟨"SCAN_RD",   0x014, 0x1FF, fun _ _ => .scanRd⟩,
  ⟨"SNAP_RD",   0x018, 0x1FF, fun _ _ => .snapRd⟩,
  ⟨"ROM_RD",    0x080, 0x183, fun c _ => .romRd (c.extractLsb' 2 5)⟩]

/-- The illegal commands (30 R75): misaligned, writes to read-only registers, unmapped. -/
def illegalRows : List Row := [
  ⟨"ILLEGAL_MISALIGNED_1", 0x001, 0x003, fun c w => .illegalMisaligned1 c.we (c.extractLsb' 2 6) (keptData c w)⟩,
  ⟨"ILLEGAL_MISALIGNED_2", 0x002, 0x003, fun c w => .illegalMisaligned2 c.we (c.extractLsb' 2 6) (keptData c w)⟩,
  ⟨"ILLEGAL_MISALIGNED_3", 0x003, 0x003, fun c w => .illegalMisaligned3 c.we (c.extractLsb' 2 6) (keptData c w)⟩,
  ⟨"ILLEGAL_SCAN_WR", 0x114, 0x1FF, fun _ w => .illegalScanWr w⟩,
  ⟨"ILLEGAL_SNAP_WR", 0x118, 0x1FF, fun _ w => .illegalSnapWr w⟩,
  ⟨"ILLEGAL_ROM_WR",  0x180, 0x183, fun c w => .illegalRomWr (c.extractLsb' 2 5) w⟩,
  ⟨"ILLEGAL_UNMAPPED_1C", 0x01C, 0x0FF, fun c w => .illegalUnmapped1C c.we (keptData c w)⟩,
  ⟨"ILLEGAL_UNMAPPED_20_3C", 0x020, 0x0E3, fun c w => .illegalUnmapped20To3C c.we (c.extractLsb' 2 3) (keptData c w)⟩,
  ⟨"ILLEGAL_UNMAPPED_40_7C", 0x040, 0x0C3, fun c w => .illegalUnmapped40To7C c.we (c.extractLsb' 2 4) (keptData c w)⟩]

/-- The whole table: "A decoder applies the first matching row of this table, then R75" (30 R74). -/
def opcodeTable : List Row := legalRows ++ illegalRows

/-- The command a transaction stands for: the first row that matches. -/
def decodeTxn (t : Txn) : Except DecodeError Instr :=
  match opcodeTable.find? (fun r => r.matches t.cmd) with
  | some r => .ok (r.build t.cmd t.wdata)
  | none => .error .noRow

/-- A transaction of a command and a data word. -/
def Txn.ofCmd (c : Cmd) (wdata : Word) : Txn := ⟨c.we, c.off, wdata⟩

/-- The 41 bits of an instruction word: the command in bits 8 to 0, the data word in bits 40 to 9 (log
entry 8: the data word's bits count on from the command's). -/
def Txn.ofBits (v : BitVec 41) : Txn := Txn.ofCmd (v.extractLsb' 0 9) (v.extractLsb' 9 32)

/-- Six bytes, the first at the lowest address, as one number: byte k is bits 8k+7 to 8k. -/
def bytesToBits (b0 b1 b2 b3 b4 b5 : Byte) : BitVec 48 := b5 ++ b4 ++ b3 ++ b2 ++ b1 ++ b0

/-- The transaction that the first six bytes lay out, and the rest of the bytes. -/
def decodeBytesTxn : List Byte → Except DecodeError (Txn × List Byte)
  | b0 :: b1 :: b2 :: b3 :: b4 :: b5 :: rest =>
    let v := bytesToBits b0 b1 b2 b3 b4 b5
    if v.extractLsb' 41 7 == 0#7 then .ok (Txn.ofBits (v.extractLsb' 0 41), rest)
    else .error .paddingNotZero
  | _ => .error .tooShort

/-- The instruction that the first six bytes lay out, and the rest of the bytes. -/
def decode (bytes : List Byte) : Except DecodeError (Instr × List Byte) :=
  match decodeBytesTxn bytes with
  | .ok (t, rest) =>
    match decodeTxn t with
    | .ok i => .ok (i, rest)
    | .error e => .error e
  | .error e => .error e

/-- The six bytes of a number, the least significant first. -/
def bitsToBytes (v : BitVec 48) : List Byte :=
  [v.extractLsb' 0 8, v.extractLsb' 8 8, v.extractLsb' 16 8,
   v.extractLsb' 24 8, v.extractLsb' 32 8, v.extractLsb' 40 8]

/-- The low `nbits` bits of `w`, in the six bytes of an instruction word (every bit above them 0). -/
def tableWordBytes (nbits w : Nat) : List Byte := bitsToBytes (BitVec.ofNat 48 (w % 2 ^ nbits))

/-- The instruction of an instruction word numbered as the opcode table numbers it. -/
def decodeTableWord (nbits w : Nat) : Option Instr :=
  match decode (tableWordBytes nbits w) with
  | .ok (i, _) => some i
  | .error _ => none

/-- A command from `we`, the word index `off[7:2]` and `off[1:0]` (30 R71). -/
def mkCmd (we : Bool) (word : BitVec 6) (low : BitVec 2) : Cmd := BitVec.ofBool we ++ word ++ low

/-- The command of an instruction, from the encodings of 30 R74 and R75. -/
def Instr.cmd : Instr → Cmd
  | .frameRd => 0x000
  | .frameWr _ => 0x100
  | .threshRd => 0x004
  | .threshWr _ => 0x104
  | .sampleRd => 0x008
  | .sampleWr _ => 0x108
  | .ctrlRd => 0x00C
  | .ctrlWr _ => 0x10C
  | .statusRd => 0x010
  | .statusWr _ => 0x110
  | .scanRd => 0x014
  | .snapRd => 0x018
  | .romRd g => mkCmd false (1#1 ++ g) 0
  | .illegalMisaligned1 we word _ => mkCmd we word 1
  | .illegalMisaligned2 we word _ => mkCmd we word 2
  | .illegalMisaligned3 we word _ => mkCmd we word 3
  | .illegalScanWr _ => 0x114
  | .illegalSnapWr _ => 0x118
  | .illegalRomWr g _ => mkCmd true (1#1 ++ g) 0
  | .illegalUnmapped1C we _ => mkCmd we 7 0
  | .illegalUnmapped20To3C we word _ => mkCmd we (0b001#3 ++ word) 0
  | .illegalUnmapped40To7C we word _ => mkCmd we (0b01#2 ++ word) 0

/-- The data word of an instruction: 0 for a read. -/
def Instr.data : Instr → Word
  | .frameRd => 0
  | .frameWr w => w
  | .threshRd => 0
  | .threshWr w => w
  | .sampleRd => 0
  | .sampleWr w => w
  | .ctrlRd => 0
  | .ctrlWr w => w
  | .statusRd => 0
  | .statusWr w => w
  | .scanRd => 0
  | .snapRd => 0
  | .romRd _ => 0
  | .illegalMisaligned1 _ _ w => w
  | .illegalMisaligned2 _ _ w => w
  | .illegalMisaligned3 _ _ w => w
  | .illegalScanWr w => w
  | .illegalSnapWr w => w
  | .illegalRomWr _ w => w
  | .illegalUnmapped1C _ w => w
  | .illegalUnmapped20To3C _ _ w => w
  | .illegalUnmapped40To7C _ _ w => w

/-- The transaction that presents an instruction. -/
def Instr.txn (i : Instr) : Txn := Txn.ofCmd i.cmd i.data

/-- The bytes of a transaction's instruction word (log entry 8). -/
def Txn.bytes (t : Txn) : List Byte := bitsToBytes ((0#7 ++ t.wdata ++ t.cmd : BitVec 48))

/-- The words of a well-formed instruction. -/
def encode (i : Instr) : List Byte := i.txn.bytes

end Sys2Proof
end

