-- ==== Sys2Proof/Config.lean ====
section
/-! DEFINITION. What an implementation fixes (00 R7) and the model's free values. The parameters are plain
data that a State carries unchanged; which of them are legal, and the reference values, are in
Machine/Params.lean. -/
namespace Sys2Proof

/-- The implementation parameters of 00 R7 that are not fixed by the source. The fixed ones (5 positions,
9 segments, 12-bit samples) are in the types. -/
structure Config where
  /-- `F_CLK`, in Hz: only the defaults of the tick parameters depend on it (70 R272). DESIGN CHOICE (log
  entry 19): a whole number of Hz, where 00 R7 asks only for a number above 0. -/
  fClk : Nat
  /-- `DWELL_TICKS`: cycles a position is driven. -/
  dwellTicks : Nat
  /-- `BLANK_TICKS`: cycles of all-off before each position is driven. -/
  blankTicks : Nat
  /-- `PULSE_TICKS`: cycles the trigger output is active per pulse. -/
  pulseTicks : Nat
  /-- `SEG_ACTIVE_LOW`: segment pin polarity. -/
  segActiveLow : Bool
  /-- `DSEL_ACTIVE_HIGH`: digit-select pin polarity. -/
  dselActiveHigh : Bool
  /-- `TRIG_ACTIVE_HIGH`: trigger pin polarity. -/
  trigActiveHigh : Bool
  /-- `PWR_ACTIVE_HIGH`: power-indicator pin polarity. -/
  pwrActiveHigh : Bool
  /-- `SEG_ROM`: entry g is the pattern of glyph code g, or none where the code is reserved (40 R100). -/
  segRom : List (Option Pattern)
  /-- `BASE`: platform base address of the register window. -/
  base : Nat
  deriving DecidableEq, Repr

/-- What a free value stands for: a state element or an output of MPX before the first reset (70 R261),
or the segment and digit-select lines in a state that 10 R37 excludes (93 V10). -/
inductive Unspecified where
  | frame | snap | idx | phase | cnt | thresh | lastSample | latch | pulseCnt | pulseRem | pwr | err
  | dselOut | segOut | trigOut | pwrOut | respKind | respData
  deriving DecidableEq, Repr

/-- The free values: `w` unconstrained bits for the element `what`, at the value `draw` of the counter
`State.draws`. It has no body, so nothing about its value can be proved (log entries 5 and 7). -/
opaque Config.unspecified (w : Nat) (draw : Nat) (what : Unspecified) : BitVec w

end Sys2Proof
end

