-- ==== Sys2Proof/Machine/Params.lean ====
section
/-! DEFINITION. The parameters' legal values (00 R7, R8, 40 R101), the segment decoder ROM as a function of
the configuration (40 R100), and the reference configuration (00 R7 defaults, 40 R102). -/
namespace Sys2Proof

/-- ROM(g): the pattern of a glyph code, or none where the code is reserved (40 R100). -/
def Config.rom (c : Config) (g : Glyph) : Option Pattern := c.segRom.getD g.toNat none

/-- A glyph code is valid exactly when the ROM holds a pattern for it (40 R101). -/
def Config.validGlyph (c : Config) (g : Glyph) : Bool := (c.rom g).isSome

/-- A duration in ticks within its bound (00 R7). -/
def ticksLegal (v bound : Nat) : Bool := decide (1 ≤ v) && decide (v ≤ bound)

/-- What 40 R101 asks of any `SEG_ROM`: 32 entries, the digits' codes valid, the two sentinels. -/
def Config.romLegal (c : Config) : Bool :=
  c.segRom.length == 32 &&
  (List.range 10).all (fun d => c.validGlyph (BitVec.ofNat 5 d)) &&
  c.rom 30 == some 0x1FF && c.rom 31 == some 0x000

/-- A configuration within the constraints of 00 R7; any other is refused (00 R8, 93 V2). -/
def Config.legal (c : Config) : Bool :=
  decide (0 < c.fClk) &&
  ticksLegal c.dwellTicks (2 ^ 24) &&
  ticksLegal c.blankTicks (2 ^ 24) &&
  ticksLegal c.pulseTicks (2 ^ 24 - 1) &&
  decide (c.base % 256 = 0) &&
  c.romLegal

/-- Cycles per position: BLANK then DRIVE (42 R141). -/
def Config.positionTicks (c : Config) : Nat := c.blankTicks + c.dwellTicks

/-- T_SWEEP: cycles of one pass over the five positions (42 R141). -/
def Config.sweepTicks (c : Config) : Nat := 5 * c.positionTicks

/-- The platform address of an offset of the window (20 R50). -/
def Config.address (c : Config) (off : BitVec 8) : Nat := c.base + off.toNat

/-- n / d rounded to the nearest, a half upwards (log entry 15). -/
def roundDiv (n d : Nat) : Nat := (2 * n + d) / (2 * d)

/-- The default `DWELL_TICKS`: round(0.004 × F_CLK) (00 R7), for a whole number of Hz (log entry 19). -/
def defaultDwellTicks (fClk : Nat) : Nat := roundDiv (4 * fClk) 1000

/-- The default `PULSE_TICKS`: round(0.050 × F_CLK) (00 R7), for a whole number of Hz (log entry 19). -/
def defaultPulseTicks (fClk : Nat) : Nat := roundDiv (50 * fClk) 1000

/-- The glyphs of the reference ROM with codes 0 to 12: the digits, I, d and the colon (40 R102). -/
def referenceGlyphs : List (Option Pattern) := [
  some 0x03F, some 0x006, some 0x05B, some 0x04F, some 0x066,
  some 0x06D, some 0x07D, some 0x007, some 0x07F, some 0x06F,
  some 0x030, some 0x05E, some 0x100]

/-- The reference contents of the segment decoder ROM: codes 13 to 29 reserved, 30 all-on, 31 all-off
(40 R102). -/
def referenceRom : List (Option Pattern) :=
  referenceGlyphs ++ List.replicate 17 none ++ [some 0x1FF, some 0x000]

/-- The defaults of 00 R7 at a clock frequency and a base address, which the spec leaves OPEN. -/
def defaultConfig (fClk base : Nat) : Config where
  fClk := fClk
  dwellTicks := defaultDwellTicks fClk
  blankTicks := 1
  pulseTicks := defaultPulseTicks fClk
  segActiveLow := true
  dselActiveHigh := true
  trigActiveHigh := true
  pwrActiveHigh := true
  segRom := referenceRom
  base := base

/-- The configuration of `State.reset`. DESIGN CHOICE (log entry 4): the spec leaves `F_CLK` and `BASE`
open, the model takes 1 MHz and 0; statements are made for every legal configuration. -/
def referenceConfig : Config := defaultConfig 1000000 0

end Sys2Proof
end

