-- ==== Sys2Proof/Machine/State.lean ====
section
/-! DEFINITION. The state of MPX (10 R36 lists all of it), the configuration it runs under, what the host
does in the coming cycles, and the reasons a step can stop. Plain data. -/
namespace Sys2Proof.Machine

/-- PHASE: BLANK (0) has all outputs off, DRIVE (1) drives position IDX (10 R25). -/
inductive Phase where
  | blank
  | drive
  deriving DecidableEq, Repr

/-- LATCHED: the two states of the threshold latch (10 R29, 43 R177). -/
inductive Latch where
  | idle
  | latched
  deriving DecidableEq, Repr

/-- The response of a transaction (20 R51 (b)): OKAY with read data, OKAY, or SLVERR. -/
inductive Response where
  | okayData (rdata : Word)
  | okay
  | slverr
  deriving DecidableEq, Repr

/-- What the host does next. -/
inductive HostOp where
  /-- One cycle: the reset input and the transaction presented, if any (20 R51). IDLE is
  `.cycle false none`, RESET is `.cycle true _` (30 R79). -/
  | cycle (rst : Bool) (txn : Option Txn)
  /-- The host's loop WAITPULSE: a STATUS read in every cycle until the value read has bit 1 clear
  (30 R81; log entry 11). -/
  | waitPulse
  /-- The supply goes away and comes back: all state is lost (60 R253; log entry 10). -/
  | powerCycle
  deriving DecidableEq, Repr

/-- Everything the machine holds. -/
structure State where
  /-- FRAME, the display buffer (10 R23). -/
  frame : Frame
  /-- SNAP, the frame on display (10 R24). -/
  snap : Frame
  /-- IDX, the position being scanned (10 R25). -/
  idx : BitVec 3
  /-- PHASE (10 R25). -/
  phase : Phase
  /-- CNT, cycles spent in the current phase (10 R26). -/
  cnt : BitVec 24
  /-- THRESH: RST_TH in bits 11 to 0, TRIG_TH in bits 27 to 16, the rest reserved (10 R27). -/
  thresh : Word
  /-- LAST_SAMPLE, the last sample the latch accepted (10 R28). -/
  lastSample : Sample
  /-- LATCHED (10 R29). -/
  latch : Latch
  /-- PULSE_CNT, pulses emitted since reset modulo 2^16 (10 R30). -/
  pulseCnt : BitVec 16
  /-- PULSE_REM, cycles the trigger output still stays active (10 R31). -/
  pulseRem : BitVec 24
  /-- PWR, the power-indicator bit (10 R32). -/
  pwr : Bool
  /-- ERR, the sticky error bits: bit j is STATUS bit 8 + j (10 R33). -/
  err : BitVec 5
  /-- The parameters of 00 R7: no step changes them (log entry 3). -/
  cfg : Config
  /-- The model's own: what the host does in the coming cycles; an empty list is a host that idles
  (log entry 1). -/
  host : List HostOp
  /-- The model's own: the response of the cycle that the last edge ended, none where no transaction was
  answered (log entry 2). -/
  resp : Option Response
  /-- The model's own: a reset edge has occurred since power-up; until then the state is unspecified
  (70 R261; log entry 5). -/
  resetDone : Bool
  /-- The model's own: the counter of free values (log entry 6). -/
  draws : Nat
  deriving DecidableEq, Repr

/-- Faults. MPX raises no trap and never stops: an error is a response and a sticky bit (60 R240, R246).
So nothing raises one. -/
inductive Fault
  deriving DecidableEq, Repr

/-- Refusals. -/
inductive Refusal where
  /-- Raised by `exec` for an instruction that has no meaning yet. Safe: nothing is said of it. -/
  | notModelled (mnemonic : String)
  /-- Raised by `step` for a configuration outside the constraints of 00 R7: "The model must refuse a
  configuration outside R7's constraints" (00 R8). Safe: nothing is said of such a machine. -/
  | illegalConfiguration
  /-- Raised by a cycle whose transaction the decoder rejects. It never happens: every command matches a
  row of the table. Safe. -/
  | undecodable (e : DecodeError)
  deriving DecidableEq, Repr

/-- The state after a reset edge (10 R36), for a configuration and a host. -/
def State.resetWith (cfg : Config) (host : List HostOp) : State where
  frame := 0x1F7DF7DF
  snap := 0x1F7DF7DF
  idx := 0
  phase := .blank
  cnt := 0
  thresh := 0x0FFF0000
  lastSample := 0
  latch := .idle
  pulseCnt := 0
  pulseRem := 0
  pwr := false
  err := 0
  cfg := cfg
  host := host
  resp := none
  resetDone := true
  draws := 0

/-- The machine right after reset (10 R36), at the reference configuration (log entry 4), the host idle
(log entry 1). -/
def State.reset : State := State.resetWith referenceConfig []

end Sys2Proof.Machine
end

