-- ==== Sys2Proof/Machine/Operands.lean ====
section
/-! DEFINITION. Operand assembly: the fields of a write's data word (30 R72), the slots of a frame (10 R23),
the fields of THRESH (10 R27), and the words that reads return (30 R73). Every field is an unsigned slice. -/
namespace Sys2Proof.Machine

/-- `wdata[29:0]` of a FRAME_WR: the frame (41 R121). -/
def frameField (w : Word) : Frame := w.extractLsb' 0 30

/-- `wdata[31:30]` of a FRAME_WR is 0 (41 R121). -/
def frameReservedClear (w : Word) : Bool := w.extractLsb' 30 2 == 0#2

/-- `G_k`: the glyph code of slot k of a frame, bits 6k+4 to 6k (10 R23). -/
def glyphOf (f : Frame) (k : Nat) : Glyph := f.extractLsb' (6 * k) 5

/-- `DP_k`: the decimal-point flag of slot k of a frame, bit 6k+5 (10 R23). -/
def dpOf (f : Frame) (k : Nat) : Bool := f.getLsbD (6 * k + 5)

/-- Every slot of the frame holds a valid glyph code (10 R23, 40 R101). -/
def frameValid (c : Config) (f : Frame) : Bool :=
  (List.range 5).all fun k => c.validGlyph (glyphOf f k)

/-- A FRAME_WR's data word is accepted: reserved bits 0, every glyph code valid (41 R121). -/
def frameLegal (c : Config) (w : Word) : Bool := frameReservedClear w && frameValid c (frameField w)

/-- One slot: the flag above the glyph code (10 R23). -/
def slot (g : Glyph) (dp : Bool) : BitVec 6 := BitVec.ofBool dp ++ g

/-- A frame from its five slots, slot 0 in the low bits (10 R23). -/
def packFrame (s0 s1 s2 s3 s4 : BitVec 6) : Frame := s4 ++ s3 ++ s2 ++ s1 ++ s0

/-- `RST_TH`: bits 11 to 0 of THRESH, or of a THRESH_WR's data word (10 R27, 30 R72). -/
def rstTh (w : Word) : Sample := w.extractLsb' 0 12

/-- `TRIG_TH`: bits 27 to 16 of THRESH, or of a THRESH_WR's data word (10 R27, 30 R72). -/
def trigTh (w : Word) : Sample := w.extractLsb' 16 12

/-- The reserved bits 15 to 12 and 31 to 28 of a THRESH word are 0 (10 R27). -/
def threshReservedClear (w : Word) : Bool :=
  w.extractLsb' 12 4 == 0#4 && w.extractLsb' 28 4 == 0#4

/-- A THRESH_WR's data word is accepted (43 R171). -/
def threshLegal (w : Word) : Bool := threshReservedClear w && (rstTh w).ult (trigTh w)

/-- `s = wdata[11:0]` of a SAMPLE_WR (43 R175). -/
def sampleField (w : Word) : Sample := w.extractLsb' 0 12

/-- `wdata[31:12]` of a SAMPLE_WR is 0 (43 R174). -/
def sampleLegal (w : Word) : Bool := w.extractLsb' 12 20 == 0#20

/-- `PWR = wdata[0]` of a CTRL_WR (44 R200). -/
def pwrField (w : Word) : Bool := w.getLsbD 0

/-- `wdata[31:1]` of a CTRL_WR is 0 (44 R200). -/
def ctrlLegal (w : Word) : Bool := w.extractLsb' 1 31 == 0#31

/-- `CLR = wdata[12:8]` of a STATUS_WR; every other bit is ignored (44 R204). -/
def clrField (w : Word) : BitVec 5 := w.extractLsb' 8 5

/-- PHASE as a bit (10 R25). -/
def Phase.bit : Phase → Bool
  | .blank => false
  | .drive => true

/-- LATCHED as a bit (10 R29). -/
def Latch.bit : Latch → Bool
  | .idle => false
  | .latched => true

/-- `PULSE_BUSY = (PULSE_REM ≠ 0)` (10 R31). -/
def State.pulseBusy (s : State) : Bool := s.pulseRem != 0

/-- The word of FRAME_RD and SNAP_RD: the frame zero-extended (41 R124, R125). -/
def frameWord (f : Frame) : Word := f.setWidth 32

/-- The word of SAMPLE_RD (43 R178). -/
def sampleWord (s : State) : Word := s.lastSample.setWidth 32

/-- The word of CTRL_RD (44 R202). -/
def ctrlWord (s : State) : Word := (BitVec.ofBool s.pwr).setWidth 32

/-- The word of STATUS_RD: PULSE_CNT in [31:16], ERR in [12:8], PULSE_BUSY in [1], LATCHED in [0]
(44 R203). -/
def statusWord (s : State) : Word :=
  s.pulseCnt ++ 0#3 ++ s.err ++ 0#6 ++ BitVec.ofBool s.pulseBusy ++ BitVec.ofBool s.latch.bit

/-- The word of SCAN_RD: {CNT, 0b0000, PHASE, IDX} (42 R149). -/
def scanWord (s : State) : Word := s.cnt ++ 0#4 ++ BitVec.ofBool s.phase.bit ++ s.idx

/-- The word of ROM_RD: the pattern zero-extended, 0 for a reserved code (40 R104). -/
def romWord (c : Config) (g : Glyph) : Word :=
  match c.rom g with
  | some p => p.setWidth 32
  | none => 0

end Sys2Proof.Machine
end

