-- ==== Sys2Proof/Machine/Flags.lean ====
section
/-! DEFINITION. The sticky error bits of STATUS (10 R33, 60 R242) and the judgement of the threshold latch
(43 R177). -/
namespace Sys2Proof.Machine

/-- The causes of 60 R242. -/
inductive ErrBit where
  | errFrame
  | errThresh
  | errSample
  | smpDrop
  | errBus
  deriving DecidableEq, Repr

/-- The code of a cause: its STATUS bit number (60 R242). -/
def ErrBit.statusBit : ErrBit → Nat
  | .errFrame => 8
  | .errThresh => 9
  | .errSample => 10
  | .smpDrop => 11
  | .errBus => 12

/-- The cause's bit of ERR, which is STATUS[12:8] (10 R33). -/
def ErrBit.mask (e : ErrBit) : BitVec 5 := 1#5 <<< (e.statusBit - 8)

/-- ERR with one bit set; a bit already set stays 1 (44 R205, 60 R247). -/
def setErr (err : BitVec 5) (e : ErrBit) : BitVec 5 := err ||| e.mask

/-- ERR with the bits of `clr` cleared: write 1 to clear (44 R204). -/
def clearErr (err clr : BitVec 5) : BitVec 5 := err &&& ~~~clr

/-- A sample exceeds the trigger threshold: `s > TRIG_TH`, unsigned (43 R175). -/
def exceedsTrigger (thresh : Word) (x : Sample) : Bool := (trigTh thresh).ult x

/-- A sample is strictly below the reset threshold: `s < RST_TH`, unsigned (43 R175). -/
def belowReset (thresh : Word) (x : Sample) : Bool := x.ult (rstTh thresh)

/-- Judging a sample starts a pulse: IDLE and above the trigger threshold (43 R177, first row). -/
def triggers (latch : Latch) (thresh : Word) (x : Sample) : Bool :=
  latch == .idle && exceedsTrigger thresh x

/-- LATCHED after judging a sample (43 R177, all four rows). -/
def judge (latch : Latch) (thresh : Word) (x : Sample) : Latch :=
  match latch with
  | .idle => if exceedsTrigger thresh x then .latched else .idle
  | .latched => if belowReset thresh x then .idle else .latched

end Sys2Proof.Machine
end

