-- ==== Sys2Proof/Machine/Ops.lean ====
section
/-! DEFINITION. The shared operations of a cycle: TICK (42 R142, 43 R181), the responses of a transaction,
the rejection that every error takes (60 R241), the reset edge (70 R260), and the cycles before the first
reset, whose outcome is a free value (70 R261). -/
namespace Sys2Proof.Machine

/-- The outcome type of every meaning. -/
abbrev Result := Host.Outcome State Fault Refusal

/-- The current phase ends at this edge: `CNT` has reached its last value (42 R142). -/
def phaseEnds (s : State) : Bool :=
  match s.phase with
  | .blank => s.cnt.toNat + 1 == s.cfg.blankTicks
  | .drive => s.cnt.toNat + 1 == s.cfg.dwellTicks

/-- The snapshot edge: position 0 passes from BLANK to DRIVE (42 R143). -/
def snapshotEdge (s : State) : Bool := s.phase == .blank && phaseEnds s && s.idx == 0

/-- The position after this one: after 4 comes 0 again (42 R141, R142). -/
def nextIdx (idx : BitVec 3) : BitVec 3 := if idx = 4 then 0 else idx + 1

/-- TICK, scan part (42 R142). SNAP takes the pre-edge FRAME at the snapshot edge (42 R143). -/
def scanStep (s : State) : State :=
  match s.phase with
  | .blank =>
    if phaseEnds s then
      { s with phase := .drive, cnt := 0, snap := if s.idx = 0 then s.frame else s.snap }
    else { s with cnt := s.cnt + 1 }
  | .drive =>
    if phaseEnds s then { s with phase := .blank, cnt := 0, idx := nextIdx s.idx }
    else { s with cnt := s.cnt + 1 }

/-- TICK, pulse part: PULSE_REM counts down and stops at 0 (43 R181). -/
def pulseStep (rem : BitVec 24) : BitVec 24 := if rem = 0 then 0 else rem - 1

/-- TICK: what the edge of a cycle does when no transaction is presented (IDLE, 30 R79). A transaction's
writes are added to it, all computed from the pre-edge state (20 R51). -/
def tick (s : State) : State := { scanStep s with pulseRem := pulseStep s.pulseRem, resp := none }

/-- A read: TICK, and OKAY with the data of the pre-edge state (20 R51, R56). -/
def respondData (s : State) (rdata : Word) : Result :=
  .next { tick s with resp := some (.okayData rdata) }

/-- A rejected transaction: SLVERR, exactly one error bit, nothing else; the TICK still happens
(60 R241). -/
def reject (s : State) (e : ErrBit) : Result :=
  .next { tick s with err := setErr s.err e, resp := some .slverr }

/-- An access error: misaligned, unmapped, or a write to a read-only register (44 R206). -/
def accessError (s : State) : Result := reject s .errBus

/-- An edge with the reset input asserted: every element takes its reset value, a transaction presented in
the cycle is discarded with no response, and no TICK happens (70 R260). -/
def resetEdge (s : State) : State :=
  { State.resetWith s.cfg s.host with draws := s.draws }

/-- Every element a free value (70 R261): the state of a powered machine that no reset edge has reached. -/
def unspecifiedState (s : State) : State :=
  let n := s.draws
  { frame := Config.unspecified 30 n .frame
    snap := Config.unspecified 30 n .snap
    idx := Config.unspecified 3 n .idx
    phase := if Config.unspecified 1 n .phase = 0 then .blank else .drive
    cnt := Config.unspecified 24 n .cnt
    thresh := Config.unspecified 32 n .thresh
    lastSample := Config.unspecified 12 n .lastSample
    latch := if Config.unspecified 1 n .latch = 0 then .idle else .latched
    pulseCnt := Config.unspecified 16 n .pulseCnt
    pulseRem := Config.unspecified 24 n .pulseRem
    pwr := Config.unspecified 1 n .pwr = 1
    err := Config.unspecified 5 n .err
    cfg := s.cfg
    host := s.host
    resp := none
    resetDone := false
    draws := n + 1 }

/-- The response of a transaction before the first reset: a free value, of any of the three kinds. -/
def unspecifiedResponse (n : Nat) : Response :=
  if Config.unspecified 2 n .respKind = 0 then .okay
  else if Config.unspecified 2 n .respKind = 1 then .slverr
  else .okayData (Config.unspecified 32 n .respData)

/-- A cycle before the first reset edge, with a transaction presented or not: nothing in the spec holds,
so the state after it is unspecified again, and so is the response (70 R261, R263 (1)). -/
def unspecifiedCycle (txn : Option Txn) (s : State) : State :=
  { unspecifiedState s with resp := txn.map fun _ => unspecifiedResponse s.draws }

/-- Power loss and power-up: all state is lost, and unspecified until a reset edge (60 R253, 70 R261). -/
def powerUp (s : State) : State := unspecifiedState s

end Sys2Proof.Machine
end

