-- ==== Sys2Proof/Machine/Control.lean ====
section
/-! DEFINITION. Control and status: CTRL_RD, CTRL_WR, STATUS_RD, STATUS_WR (44). -/
namespace Sys2Proof.Machine

/-- CTRL_RD (44 R202). -/
def execCtrlRd (s : State) : Result := respondData s (ctrlWord s)

/-- CTRL_WR, or rejected with ERR_BUS (44 R200, R207). -/
def execCtrlWr (w : Word) (s : State) : Result :=
  if ctrlLegal w then .next { tick s with pwr := pwrField w, resp := some .okay }
  else reject s .errBus

/-- STATUS_RD (44 R203). -/
def execStatusRd (s : State) : Result := respondData s (statusWord s)

/-- STATUS_WR: write 1 to clear; always OKAY (44 R204). -/
def execStatusWr (w : Word) (s : State) : Result :=
  .next { tick s with err := clearErr s.err (clrField w), resp := some .okay }

end Sys2Proof.Machine
end

