-- ==== Sys2Proof/Machine/Display.lean ====
section
/-! DEFINITION. The display buffer and the ROM window: FRAME_RD, FRAME_WR, SNAP_RD (41), SCAN_RD (42) and
ROM_RD (40). -/
namespace Sys2Proof.Machine

/-- FRAME_RD (41 R124). -/
def execFrameRd (s : State) : Result := respondData s (frameWord s.frame)

/-- FRAME_WR: the whole frame at one edge, or rejected with ERR_FRAME (41 R121, R122). -/
def execFrameWr (w : Word) (s : State) : Result :=
  if frameLegal s.cfg w then .next { tick s with frame := frameField w, resp := some .okay }
  else reject s .errFrame

/-- SNAP_RD (41 R125). -/
def execSnapRd (s : State) : Result := respondData s (frameWord s.snap)

/-- SCAN_RD (42 R149). -/
def execScanRd (s : State) : Result := respondData s (scanWord s)

/-- ROM_RD of glyph code g (40 R104). -/
def execRomRd (g : Glyph) (s : State) : Result := respondData s (romWord s.cfg g)

end Sys2Proof.Machine
end

