-- ==== Sys2Proof/Machine/Illegal.lean ====
section
/-! DEFINITION. The illegal commands: each is an access error, with the same effect (30 R75, 44 R206). The
data word and the rest of the offset play no part. -/
namespace Sys2Proof.Machine

/-- Misaligned, off[1:0] = 1 (30 R75 (a)). -/
def execIllegalMisaligned1 (s : State) : Result := accessError s

/-- Misaligned, off[1:0] = 2 (30 R75 (a)). -/
def execIllegalMisaligned2 (s : State) : Result := accessError s

/-- Misaligned, off[1:0] = 3 (30 R75 (a)). -/
def execIllegalMisaligned3 (s : State) : Result := accessError s

/-- A write to SCAN (30 R75 (b)). -/
def execIllegalScanWr (s : State) : Result := accessError s

/-- A write to SNAP (30 R75 (b)). -/
def execIllegalSnapWr (s : State) : Result := accessError s

/-- A write to the ROM window (30 R75 (b)). -/
def execIllegalRomWr (s : State) : Result := accessError s

/-- Offset 0x1C (30 R75 (c)). -/
def execIllegalUnmapped1C (s : State) : Result := accessError s

/-- Offsets 0x20 to 0x3C (30 R75 (c)). -/
def execIllegalUnmapped20To3C (s : State) : Result := accessError s

/-- Offsets 0x40 to 0x7C (30 R75 (c)). -/
def execIllegalUnmapped40To7C (s : State) : Result := accessError s

end Sys2Proof.Machine
end

