-- ==== Sys2Proof/Machine/Threshold.lean ====
section
/-! DEFINITION. The hysteresis threshold latch: THRESH_RD, THRESH_WR, SAMPLE_RD, SAMPLE_WR (43). -/
namespace Sys2Proof.Machine

/-- THRESH_RD (43 R173). -/
def execThreshRd (s : State) : Result := respondData s s.thresh

/-- THRESH_WR: both thresholds at one edge, or rejected with ERR_THRESH (43 R171, R172). -/
def execThreshWr (w : Word) (s : State) : Result :=
  if threshLegal w then .next { tick s with thresh := w, resp := some .okay }
  else reject s .errThresh

/-- SAMPLE_RD: the last accepted sample (43 R178). -/
def execSampleRd (s : State) : Result := respondData s (sampleWord s)

/-- An accepted sample is judged against the pre-edge THRESH; a trigger loads PULSE_REM, which overrides
the count-down of the same edge, and counts the pulse (43 R175, R181). -/
def acceptSample (x : Sample) (s : State) : State :=
  let fires := triggers s.latch s.thresh x
  { tick s with
    lastSample := x
    latch := judge s.latch s.thresh x
    pulseRem := if fires then BitVec.ofNat 24 s.cfg.pulseTicks else pulseStep s.pulseRem
    pulseCnt := if fires then s.pulseCnt + 1 else s.pulseCnt
    resp := some .okay }

/-- A sample dropped because a pulse is active: OKAY, SMP_DROP, not judged (43 R176). -/
def dropSample (s : State) : State :=
  { tick s with err := setErr s.err .smpDrop, resp := some .okay }

/-- SAMPLE_WR: the malformed-sample check comes first, then the busy check (43 R174, R175, R176). -/
def execSampleWr (w : Word) (s : State) : Result :=
  if sampleLegal w then
    if s.pulseBusy then .next (dropSample s) else .next (acceptSample (sampleField w) s)
  else reject s .errSample

end Sys2Proof.Machine
end

