-- ==== Sys2Proof/Machine/Dispatch.lean ====
section
/-! DEFINITION. The cycle in which an instruction's transaction is presented: one arm per command. -/
namespace Sys2Proof.Machine

def exec (i : Instr) (s : State) : Host.Outcome State Fault Refusal :=
  match i with
  | .frameRd => Sys2Proof.Machine.execFrameRd s
  | .frameWr w => Sys2Proof.Machine.execFrameWr w s
  | .threshRd => Sys2Proof.Machine.execThreshRd s
  | .threshWr w => Sys2Proof.Machine.execThreshWr w s
  | .sampleRd => Sys2Proof.Machine.execSampleRd s
  | .sampleWr w => Sys2Proof.Machine.execSampleWr w s
  | .ctrlRd => Sys2Proof.Machine.execCtrlRd s
  | .ctrlWr w => Sys2Proof.Machine.execCtrlWr w s
  | .statusRd => Sys2Proof.Machine.execStatusRd s
  | .statusWr w => Sys2Proof.Machine.execStatusWr w s
  | .scanRd => Sys2Proof.Machine.execScanRd s
  | .snapRd => Sys2Proof.Machine.execSnapRd s
  | .romRd g => Sys2Proof.Machine.execRomRd g s
  | .illegalMisaligned1 _ _ _ => Sys2Proof.Machine.execIllegalMisaligned1 s
  | .illegalMisaligned2 _ _ _ => Sys2Proof.Machine.execIllegalMisaligned2 s
  | .illegalMisaligned3 _ _ _ => Sys2Proof.Machine.execIllegalMisaligned3 s
  | .illegalScanWr _ => Sys2Proof.Machine.execIllegalScanWr s
  | .illegalSnapWr _ => Sys2Proof.Machine.execIllegalSnapWr s
  | .illegalRomWr _ _ => Sys2Proof.Machine.execIllegalRomWr s
  | .illegalUnmapped1C _ _ => Sys2Proof.Machine.execIllegalUnmapped1C s
  | .illegalUnmapped20To3C _ _ _ => Sys2Proof.Machine.execIllegalUnmapped20To3C s
  | .illegalUnmapped40To7C _ _ _ => Sys2Proof.Machine.execIllegalUnmapped40To7C s

end Sys2Proof.Machine
end

