-- ==== Sys2Proof/Machine/Cycle.lean ====
section
/-! DEFINITION. One clock cycle: `Step(S, txn, rst)` of 20 R51, and what the host's next entry makes of it. -/
namespace Sys2Proof.Machine

/-- A cycle with the reset input `rst` and the transaction `txn` presented, if any (20 R51). Reset comes
first (70 R260); before the first reset edge nothing is specified (70 R261); else the transaction's command
runs, or TICK alone in an IDLE cycle (30 R79). -/
def runCycle (rst : Bool) (txn : Option Txn) (s : State) : Result :=
  if rst then .next (resetEdge s)
  else if s.resetDone then
    match txn with
    | none => .next (tick s)
    | some t =>
      match decodeTxn t with
      | .ok i => exec i s
      | .error e => .refused (.undecodable e)
  else .next (unspecifiedCycle txn s)

/-- The transaction of a STATUS read, offset 0x10 (10 R35). -/
def statusReadTxn : Txn := ⟨false, 0x10, 0⟩

/-- WAITPULSE goes on while bit 1 of the value read is not 0 (30 R81). -/
def pollAgain : Option Response → Bool
  | some (.okayData w) => w.getLsbD 1
  | _ => false

/-- One cycle of WAITPULSE: a STATUS read, and the loop stays the host's next entry while the value read
has bit 1 set (30 R81). -/
def pollCycle (s : State) : Result :=
  match runCycle false (some statusReadTxn) s with
  | .next t => if pollAgain t.resp then .next { t with host := .waitPulse :: t.host } else .next t
  | .fault r => .fault r
  | .refused r => .refused r

/-- What one entry of the host's list does to the machine, the entry already taken off the list. -/
def runHostOp (op : HostOp) (s : State) : Result :=
  match op with
  | .cycle rst txn => runCycle rst txn s
  | .waitPulse => pollCycle s
  | .powerCycle => .next (powerUp s)

/-- The host's next entry: IDLE where its list is empty (log entry 1). -/
def hostNext (s : State) : HostOp := s.host.headD (.cycle false none)

/-- The state with the host's next entry taken off its list. -/
def hostTaken (s : State) : State := { s with host := s.host.tail }

/-- One step of the machine under a legal configuration; any other is refused (00 R8). -/
def runStep (s : State) : Result :=
  if s.cfg.legal then runHostOp (hostNext s) (hostTaken s) else .refused .illegalConfiguration

/-- The transaction of an instruction word numbered as the opcode table numbers it: the low `nbits` bits of
`w`, in the layout of `Txn.ofBits` (log entry 8). -/
def tableWordTxn (nbits w : Nat) : Txn := Txn.ofBits (BitVec.ofNat 41 (w % 2 ^ nbits))

/-- The state in which the host presents a transaction in the next cycle, in place of what it would have
done in that cycle (log entry 9). -/
def presentNext (t : Txn) (s : State) : State := { s with host := .cycle false (some t) :: s.host.tail }

end Sys2Proof.Machine
end

