-- ==== Sys2Proof/Machine/Step.lean ====
section
/-! DEFINITION. The step of the machine, one rising edge (00 R11), and the placing of an instruction word
where the next step finds it. -/
namespace Sys2Proof.Machine

/-- One rising edge. -/
def step (s : State) : Host.Outcome State Fault Refusal := runStep s

/-- `s` with an instruction word presented in the next cycle (log entry 9). -/
def State.withFetchWord (s : State) (nbits w : Nat) : State := presentNext (tableWordTxn nbits w) s

end Sys2Proof.Machine
end

