-- ==== Sys2Proof/Machine/HostReference.lean ====
section
/-! DEFINITION. Host software the spec keeps for reference, outside the block (48; 00 R5 (a), (b)), and the
conversion of volts to codes that 43 R170 leaves to the host. Plain functions in exact arithmetic; no step
of the machine calls them (log entry 17). Volts are fractions `num / den` with `den > 0`. -/
namespace Sys2Proof.Machine

/-- A code clamped to 0..4095 (43 R170). -/
def clampCode (x : Int) : Nat := (min (max x 0) 4095).toNat

/-- The code of a trigger threshold θ = a/b at full scale FSV = p/q: floor(θ × 4096 / FSV), clamped
(43 R170). -/
def triggerCode (a : Int) (b p q : Nat) : Nat := clampCode (a * 4096 * q / (b * p))

/-- The code of a reset threshold θr = a/b at full scale FSV = p/q: ceil(θr × 4096 / FSV), clamped
(43 R170). -/
def resetCode (a : Int) (b p q : Nat) : Nat := clampCode (-(-(a * 4096 * q) / (b * p)))

/-- `N = floor(vc × 1000)`, with v = num/den clamped to [0, 9.999] first (48 R221, R222): the clamp and the
floor may be taken in either order, since 9.999 × 1000 is a whole number. -/
def milliVolts (num : Int) (den : Nat) : Nat := (min (max (num * 1000 / den) 0) 9999).toNat

/-- A decimal digit's slot: glyph code d (40 R101 (a)). -/
def digitSlot (d : Nat) (dp : Bool) : BitVec 6 := slot (BitVec.ofNat 5 d) dp

/-- The five-slot frame of N: ones with the decimal point, tenths, blank, hundredths, thousandths
(48 R222). -/
def convertFrame (n : Nat) : Frame :=
  packFrame (digitSlot (n / 1000) true) (digitSlot (n / 100 % 10) false) (slot 31 false)
    (digitSlot (n / 10 % 10) false) (digitSlot (n % 10) false)

/-- W(v) (48 R222). -/
def convertWord (num : Int) (den : Nat) : Word := frameWord (convertFrame (milliVolts num den))

/-- A handshake byte is accepted exactly when it is an ASCII digit (48 R226). -/
def acceptsByte (b : Nat) : Bool := decide (0x30 ≤ b) && decide (b ≤ 0x39)

/-- `idDigit` (48 R227). -/
def idDigit (b : Nat) : Nat := b - 0x30

/-- The reference ID frame: I, d, colon, blank, the digit (48 R227). -/
def idFrameWord (d : Nat) : Word :=
  frameWord (packFrame (slot 10 false) (slot 11 false) (slot 12 false) (slot 31 false) (digitSlot d false))

/-- `nextId` (48 R228). -/
def nextId (d : Nat) : Nat := (d + 1) % 10

/-- The bytes the host sends: `nextId` as ASCII, `repeats` times (48 R228). -/
def handshakeBytes (d repeats : Nat) : List Nat := List.replicate repeats (0x30 + nextId d)

end Sys2Proof.Machine
end

