-- ==== Sys2Proof/Machine/Outputs.lean ====
section
/-! DEFINITION. The output lines: Moore outputs, functions of the state of the cycle (00 R11, 42 R147), first
as logical levels (1 = active, 00 R12) and then as pin levels. -/
namespace Sys2Proof.Machine

/-- The output lines (00 R3): digit selects, segments, trigger pulse, power indicator. -/
structure Outputs where
  dsel : BitVec 5
  seg  : Pattern
  trig : Bool
  pwr  : Bool
  deriving DecidableEq, Repr

/-- The pattern of a glyph on display. SNAP holds valid codes only (10 R37 (c)), so the free value is never
shown after reset (log entry 7). -/
def patternOf (s : State) (g : Glyph) : Pattern :=
  (s.cfg.rom g).getD (Config.unspecified 9 s.draws .segOut)

/-- A pattern with the slot's decimal-point flag: segment 7 is the pattern's bit OR the flag (42 R146). -/
def withDp (p : Pattern) (dp : Bool) : Pattern := p ||| (if dp then 0x080#9 else 0#9)

/-- The digit selects: none in BLANK, line IDX alone in DRIVE (42 R144, R145). IDX above 4 never occurs
after reset (10 R37 (a)): a free value there (log entry 7). -/
def dselOut (s : State) : BitVec 5 :=
  match s.phase with
  | .blank => 0
  | .drive => if s.idx.toNat < 5 then 1#5 <<< s.idx.toNat else Config.unspecified 5 s.draws .dselOut

/-- The segments: off in BLANK, the pattern of slot IDX of SNAP in DRIVE (42 R144, R146). -/
def segOut (s : State) : Pattern :=
  match s.phase with
  | .blank => 0
  | .drive =>
    if s.idx.toNat < 5 then
      withDp (patternOf s (glyphOf s.snap s.idx.toNat)) (dpOf s.snap s.idx.toNat)
    else Config.unspecified 9 s.draws .segOut

/-- The trigger output: active exactly while PULSE_REM is not 0 (43 R182). -/
def trigOut (s : State) : Bool := s.pulseBusy

/-- The lines of a machine that no reset edge has reached: free values (70 R261; log entry 5). -/
def unspecifiedOutputs (n : Nat) : Outputs where
  dsel := Config.unspecified 5 n .dselOut
  seg := Config.unspecified 9 n .segOut
  trig := Config.unspecified 1 n .trigOut = 1
  pwr := Config.unspecified 1 n .pwrOut = 1

/-- The logical levels of a cycle (42 R144 to R146, 43 R182, 44 R201). -/
def logicalOutputs (s : State) : Outputs :=
  if s.resetDone then { dsel := dselOut s, seg := segOut s, trig := trigOut s, pwr := s.pwr }
  else unspecifiedOutputs s.draws

/-- A single line's pin level (43 R183, 44 R201). -/
def pinLevel (activeHigh level : Bool) : Bool := if activeHigh then level else !level

/-- The pin levels of a cycle: the logical levels under the polarity parameters (42 R148, 43 R183,
44 R201). -/
def pins (s : State) : Outputs :=
  let l := logicalOutputs s
  { dsel := if s.cfg.dselActiveHigh then l.dsel else ~~~l.dsel
    seg := if s.cfg.segActiveLow then ~~~l.seg else l.seg
    trig := pinLevel s.cfg.trigActiveHigh l.trig
    pwr := pinLevel s.cfg.pwrActiveHigh l.pwr }

end Sys2Proof.Machine
end

