-- ==== Sys2Proof/Safety.lean ====
section
/-! DEFINITION. What claims are stated in: the invariant of reachable states (10 R37), runs of the machine,
and the parts of the host's list that leave the machine alone. -/
namespace Sys2Proof.Machine

/-- The invariants of every state reachable after reset (10 R37 (a) to (f)), and that the reserved bits of
THRESH are 0 (10 R27). -/
structure ReachableInv (s : State) : Prop where
  idx_le : s.idx.toNat ≤ 4
  cnt_blank : s.phase = .blank → s.cnt.toNat < s.cfg.blankTicks
  cnt_drive : s.phase = .drive → s.cnt.toNat < s.cfg.dwellTicks
  frame_valid : frameValid s.cfg s.frame = true
  snap_valid : frameValid s.cfg s.snap = true
  band : (rstTh s.thresh).toNat < (trigTh s.thresh).toNat
  thresh_reserved : threshReservedClear s.thresh = true
  pulse_le : s.pulseRem.toNat ≤ s.cfg.pulseTicks
  pulse_latched : s.pulseRem ≠ 0 → s.latch = .latched

/-- A legal configuration, and once a reset edge has occurred, the invariants of 10 R37. -/
def State.Inv (s : State) : Prop := s.cfg.legal = true ∧ (s.resetDone = true → ReachableInv s)

/-- `n` steps from `s` end in the next state `t`. -/
def RunsTo (n : Nat) (s t : State) : Prop := Sys2Proof.core.run n s = Host.Outcome.next t

/-- An entry of the host's list that neither resets the machine nor takes its supply away. -/
def HostOp.quiet : HostOp → Bool
  | .cycle rst _ => !rst
  | .waitPulse => true
  | .powerCycle => false

/-- The host neither resets the machine nor takes its supply away in the next `n` cycles. -/
def quietFor (n : Nat) (s : State) : Prop := ∀ op ∈ s.host.take n, op.quiet = true

/-- The transaction an entry of the host's list presents in its first cycle. -/
def HostOp.presents : HostOp → Option Txn
  | .cycle _ txn => txn
  | .waitPulse => some statusReadTxn
  | .powerCycle => none

/-- The next step is a cycle of MPX proper: a legal configuration, a reset edge has occurred, and the host
neither resets nor takes the supply away. -/
def plainCycle (s : State) : Prop :=
  s.cfg.legal = true ∧ s.resetDone = true ∧ (hostNext s).quiet = true

/-- The next step presents a FRAME_WR. -/
def presentsFrameWr (s : State) (w : Word) : Prop :=
  ∃ t, (hostNext s).presents = some t ∧ decodeTxn t = .ok (.frameWr w)

end Sys2Proof.Machine
end

