-- ==== Sys2Proof/Certificates/Slice0/Obligations.lean ====
section
/-! DEFINITION. The statements about MPX for the provers. `tick s` is the state after an IDLE cycle
(`Obligations.IdleCycleFollowsTheTickRule` says what it holds); a transaction's next state is stated as
`tick s` with exactly the elements the transaction writes, so each such statement is its own frame. -/
open Sys2Proof Sys2Proof.Machine Host

/-! ### Encoding -/

/-- 30 R74: the legal commands, each at its `we` and offset, with its data word. -/
def Obligations.LegalCommandsDecodeByTheTable : Prop :=
  ∀ (w : Word) (g : Glyph),
    decodeTxn ⟨false, 0x00, w⟩ = .ok .frameRd ∧ decodeTxn ⟨true, 0x00, w⟩ = .ok (.frameWr w) ∧
    decodeTxn ⟨false, 0x04, w⟩ = .ok .threshRd ∧ decodeTxn ⟨true, 0x04, w⟩ = .ok (.threshWr w) ∧
    decodeTxn ⟨false, 0x08, w⟩ = .ok .sampleRd ∧ decodeTxn ⟨true, 0x08, w⟩ = .ok (.sampleWr w) ∧
    decodeTxn ⟨false, 0x0C, w⟩ = .ok .ctrlRd ∧ decodeTxn ⟨true, 0x0C, w⟩ = .ok (.ctrlWr w) ∧
    decodeTxn ⟨false, 0x10, w⟩ = .ok .statusRd ∧ decodeTxn ⟨true, 0x10, w⟩ = .ok (.statusWr w) ∧
    decodeTxn ⟨false, 0x14, w⟩ = .ok .scanRd ∧ decodeTxn ⟨false, 0x18, w⟩ = .ok .snapRd ∧
    decodeTxn ⟨false, BitVec.ofNat 8 (0x80 + 4 * g.toNat), w⟩ = .ok (.romRd g)

/-- 44 R206: the condition of an access error, in the rule's own terms. -/
def isAccessError (t : Txn) : Prop :=
  t.off.toNat % 4 ≠ 0 ∨ (0x1C ≤ t.off.toNat ∧ t.off.toNat ≤ 0x7C) ∨
  (t.we = true ∧ (t.off = 0x14 ∨ t.off = 0x18 ∨ 0x80 ≤ t.off.toNat))

/-- 44 R206: an access error is SLVERR with ERR_BUS set (bit 4 of ERR), and nothing else but TICK,
whatever its data word (so it takes priority over a check of the data, 60 R243). -/
def Obligations.AccessErrorsSetErrBusAndNothingElse : Prop :=
  ∀ (t : Txn) (s : State), isAccessError t → s.resetDone = true →
    runCycle false (some t) s = .next { tick s with err := s.err ||| 0b10000#5, resp := some .slverr }

/-- The encoder and the decoder agree on every well-formed instruction, whatever follows its bytes. -/
def Obligations.EncodeThenDecodeIsIdentity : Prop :=
  ∀ (i : Instr) (rest : List Byte), i.wellFormed = true → decode (encode i ++ rest) = .ok (i, rest)

/-- The other direction: what a transaction decodes to is well formed and encodes to the same command, and
to the same data word where the transaction is a write. -/
def Obligations.DecodedInstructionKeepsItsTransaction : Prop :=
  ∀ t : Txn, ∃ i, decodeTxn t = .ok i ∧ i.wellFormed = true ∧ i.txn.we = t.we ∧ i.txn.off = t.off ∧
    i.txn.wdata = if t.we then t.wdata else 0

/-- Seven words written out from the encodings of 30 R74 and R75: FRAME_RD, FRAME_WR, THRESH_WR, STATUS_RD,
ROM_RD, a misaligned read and a write to the ROM window. A sanity statement; Tests/Slice0.lean has a word for
every command. The data word above the nine command bits is the model's layout (log entry 8). -/
def Obligations.SevenWrittenOutWordsDecode : Prop :=
  decodeTableWord 16 0b0_0000_0000 = some .frameRd ∧
  decodeTableWord 41 (0x040DF0A1 * 512 + 0b1_0000_0000) = some (.frameWr 0x040DF0A1) ∧
  decodeTableWord 41 (0x05DC0578 * 512 + 0b1_0000_0100) = some (.threshWr 0x05DC0578) ∧
  decodeTableWord 16 0b0_0001_0000 = some .statusRd ∧
  decodeTableWord 16 0b0_1010_0000 = some (.romRd 8) ∧
  decodeTableWord 16 0b0_0000_0010 = some (.illegalMisaligned2 false 0 0) ∧
  decodeTableWord 16 0b1_1111_1100 = some (.illegalRomWr 31 0)

/-! ### A step -/

/-- A cycle of a machine that has been reset, in which the host presents a transaction, is the run of the
command it decodes to, on the state whose host list has that entry taken off. -/
def Obligations.StepRunsTheDecodedInstruction : Prop :=
  ∀ (s : State) (t : Txn) (i : Instr), s.cfg.legal = true → s.resetDone = true →
    hostNext s = .cycle false (some t) → decodeTxn t = .ok i → step s = exec i (hostTaken s)

/-- An instruction word placed with `withFetchWord` is the one the next step runs. -/
def Obligations.FetchWordRunsItsInstruction : Prop :=
  ∀ (s : State) (nbits w : Nat) (i : Instr), s.cfg.legal = true → s.resetDone = true →
    decodeTableWord nbits w = some i → step (s.withFetchWord nbits w) = exec i (hostTaken s)

/-- 42 R142 and 43 R181: in an IDLE cycle the scan advances by the rule, PULSE_REM counts down to 0, and
nothing else of MPX changes. -/
def Obligations.IdleCycleFollowsTheTickRule : Prop :=
  ∀ s : State, s.cfg.legal = true → s.resetDone = true → hostNext s = .cycle false none →
    step s = .next (tick (hostTaken s)) ∧
    ∀ t, t = tick (hostTaken s) →
      (s.phase = .blank → s.cnt.toNat = s.cfg.blankTicks - 1 →
        t.phase = .drive ∧ t.cnt = 0 ∧ t.idx = s.idx ∧ t.snap = if s.idx = 0 then s.frame else s.snap) ∧
      (s.phase = .blank → s.cnt.toNat ≠ s.cfg.blankTicks - 1 →
        t.phase = .blank ∧ t.cnt = s.cnt + 1 ∧ t.idx = s.idx ∧ t.snap = s.snap) ∧
      (s.phase = .drive → s.cnt.toNat = s.cfg.dwellTicks - 1 →
        t.phase = .blank ∧ t.cnt = 0 ∧ t.idx = (if s.idx = 4 then 0 else s.idx + 1) ∧ t.snap = s.snap) ∧
      (s.phase = .drive → s.cnt.toNat ≠ s.cfg.dwellTicks - 1 →
        t.phase = .drive ∧ t.cnt = s.cnt + 1 ∧ t.idx = s.idx ∧ t.snap = s.snap) ∧
      t.pulseRem = (if s.pulseRem ≠ 0 then s.pulseRem - 1 else s.pulseRem) ∧
      t.frame = s.frame ∧ t.thresh = s.thresh ∧ t.lastSample = s.lastSample ∧ t.latch = s.latch ∧
      t.pulseCnt = s.pulseCnt ∧ t.pwr = s.pwr ∧ t.err = s.err ∧ t.cfg = s.cfg ∧ t.resp = none ∧
      t.resetDone = true ∧ t.draws = s.draws ∧ t.host = s.host.tail

/-- 42 R140: no command changes the scan: after any two commands in the same state, the scan controller's
state is the same, and it is what an IDLE cycle leaves. -/
def Obligations.HostCannotChangeTheScan : Prop :=
  ∀ (i : Instr) (s : State), ∃ t, exec i s = .next t ∧
    t.phase = (tick s).phase ∧ t.cnt = (tick s).cnt ∧ t.idx = (tick s).idx ∧ t.snap = (tick s).snap

/-! ### Reads -/

/-- 41 R124, R125: FRAME_RD and SNAP_RD, with their encodings. -/
def Obligations.FrameAndSnapReadsReturnTheFrames : Prop :=
  ∀ (s : State) (w : Word),
    decodeTxn ⟨false, 0x00, w⟩ = .ok .frameRd ∧ decodeTxn ⟨false, 0x18, w⟩ = .ok .snapRd ∧
    exec .frameRd s = .next { tick s with resp := some (.okayData (s.frame.setWidth 32)) } ∧
    exec .snapRd s = .next { tick s with resp := some (.okayData (s.snap.setWidth 32)) }

/-- 43 R173, R178 and 44 R202: THRESH_RD, whose reserved bits read 0, SAMPLE_RD, CTRL_RD, with their
encodings. -/
def Obligations.ThreshSampleAndCtrlReads : Prop :=
  ∀ (s : State) (w : Word),
    decodeTxn ⟨false, 0x04, w⟩ = .ok .threshRd ∧ decodeTxn ⟨false, 0x08, w⟩ = .ok .sampleRd ∧
    decodeTxn ⟨false, 0x0C, w⟩ = .ok .ctrlRd ∧
    exec .threshRd s = .next { tick s with resp := some (.okayData s.thresh) } ∧
    (s.Inv → s.resetDone = true → s.thresh.extractLsb' 12 4 = 0#4 ∧ s.thresh.extractLsb' 28 4 = 0#4) ∧
    exec .sampleRd s = .next { tick s with resp := some (.okayData (s.lastSample.setWidth 32)) } ∧
    exec .ctrlRd s = .next { tick s with resp := some (.okayData (if s.pwr then 1 else 0)) }

/-- 44 R203: the word of STATUS_RD, field by field; the read clears nothing. -/
def Obligations.StatusReadWordByFields : Prop :=
  ∀ (s : State) (w : Word), decodeTxn ⟨false, 0x10, w⟩ = .ok .statusRd ∧
    ∃ d : Word, exec .statusRd s = .next { tick s with resp := some (.okayData d) } ∧
    d.getLsbD 0 = decide (s.latch = .latched) ∧ d.getLsbD 1 = decide (s.pulseRem ≠ 0) ∧
    d.extractLsb' 2 6 = 0#6 ∧ d.extractLsb' 8 5 = s.err ∧ d.extractLsb' 13 3 = 0#3 ∧
    d.extractLsb' 16 16 = s.pulseCnt

/-- 42 R149: the word of SCAN_RD, field by field. -/
def Obligations.ScanReadWordByFields : Prop :=
  ∀ (s : State) (w : Word), decodeTxn ⟨false, 0x14, w⟩ = .ok .scanRd ∧
    ∃ d : Word, exec .scanRd s = .next { tick s with resp := some (.okayData d) } ∧
    d.extractLsb' 0 3 = s.idx ∧ d.getLsbD 3 = decide (s.phase = .drive) ∧
    d.extractLsb' 4 4 = 0#4 ∧ d.extractLsb' 8 24 = s.cnt

/-- 40 R104: ROM_RD returns the pattern, and 0 for a reserved code; always OKAY. -/
def Obligations.RomReadReturnsThePattern : Prop :=
  ∀ (s : State) (g : Glyph) (w : Word),
    decodeTxn ⟨false, BitVec.ofNat 8 (0x80 + 4 * g.toNat), w⟩ = .ok (.romRd g) ∧
    (s.cfg.rom g = none → exec (.romRd g) s = .next { tick s with resp := some (.okayData 0) }) ∧
    (∀ p, s.cfg.rom g = some p →
      exec (.romRd g) s = .next { tick s with resp := some (.okayData (p.setWidth 32)) })

/-! ### Writes -/

/-- 41 R121: an accepted FRAME_WR replaces the whole frame, and no other command changes FRAME. -/
def Obligations.FrameWriteAccepted : Prop :=
  ∀ (s : State) (w : Word), decodeTxn ⟨true, 0x00, w⟩ = .ok (.frameWr w) ∧
    (w.extractLsb' 30 2 = 0#2 →
      (∀ k, k < 5 → ∃ p, s.cfg.rom (w.extractLsb' (6 * k) 5) = some p) →
      exec (.frameWr w) s = .next { tick s with frame := w.extractLsb' 0 30, resp := some .okay }) ∧
    ∀ (i : Instr) (t : State), exec i s = .next t → t.frame ≠ s.frame → ∃ v, i = .frameWr v

/-- 41 R122: a rejected FRAME_WR sets ERR_FRAME (bit 0 of ERR) and leaves FRAME. -/
def Obligations.FrameWriteRejected : Prop :=
  ∀ (s : State) (w : Word),
    (w.extractLsb' 30 2 ≠ 0#2 ∨ ∃ k, k < 5 ∧ s.cfg.rom (w.extractLsb' (6 * k) 5) = none) →
    exec (.frameWr w) s = .next { tick s with err := s.err ||| 0b00001#5, resp := some .slverr }

/-- 43 R171: an accepted THRESH_WR replaces both thresholds, and nothing of the latch. -/
def Obligations.ThreshWriteAccepted : Prop :=
  ∀ (s : State) (w : Word), decodeTxn ⟨true, 0x04, w⟩ = .ok (.threshWr w) ∧
    (w.extractLsb' 12 4 = 0#4 → w.extractLsb' 28 4 = 0#4 →
      (w.extractLsb' 0 12).toNat < (w.extractLsb' 16 12).toNat →
      exec (.threshWr w) s = .next { tick s with thresh := w, resp := some .okay })

/-- 43 R172: a rejected THRESH_WR sets ERR_THRESH (bit 1 of ERR) and leaves THRESH. -/
def Obligations.ThreshWriteRejected : Prop :=
  ∀ (s : State) (w : Word),
    (w.extractLsb' 12 4 ≠ 0#4 ∨ w.extractLsb' 28 4 ≠ 0#4 ∨
      (w.extractLsb' 16 12).toNat ≤ (w.extractLsb' 0 12).toNat) →
    exec (.threshWr w) s = .next { tick s with err := s.err ||| 0b00010#5, resp := some .slverr }

/-- 43 R174: a malformed SAMPLE_WR sets ERR_SAMPLE (bit 2 of ERR), during a pulse too. -/
def Obligations.MalformedSampleRejected : Prop :=
  ∀ (s : State) (w : Word), w.extractLsb' 12 20 ≠ 0#20 →
    exec (.sampleWr w) s = .next { tick s with err := s.err ||| 0b00100#5, resp := some .slverr }

/-- 43 R176: a sample written during a pulse is dropped: OKAY, SMP_DROP (bit 3 of ERR), not judged. -/
def Obligations.SampleDuringPulseDropped : Prop :=
  ∀ (s : State) (w : Word), w.extractLsb' 12 20 = 0#20 → s.pulseRem ≠ 0 →
    exec (.sampleWr w) s = .next { tick s with err := s.err ||| 0b01000#5, resp := some .okay }

/-- 43 R175: an accepted sample, in the four rows of 43 R177; a trigger loads PULSE_REM and counts the
pulse. -/
def Obligations.AcceptedSampleJudged : Prop :=
  ∀ (s : State) (w : Word), s.cfg.legal = true → w.extractLsb' 12 20 = 0#20 → s.pulseRem = 0 →
    decodeTxn ⟨true, 0x08, w⟩ = .ok (.sampleWr w) ∧
    ∃ t, exec (.sampleWr w) s = .next t ∧
      (s.latch = .idle → (w.extractLsb' 0 12).toNat > (s.thresh.extractLsb' 16 12).toNat →
        t = { tick s with lastSample := w.extractLsb' 0 12, latch := .latched,
                          pulseRem := t.pulseRem, pulseCnt := s.pulseCnt + 1, resp := some .okay } ∧
        t.pulseRem.toNat = s.cfg.pulseTicks) ∧
      (s.latch = .idle → (w.extractLsb' 0 12).toNat ≤ (s.thresh.extractLsb' 16 12).toNat →
        t = { tick s with lastSample := w.extractLsb' 0 12, resp := some .okay }) ∧
      (s.latch = .latched → (w.extractLsb' 0 12).toNat < (s.thresh.extractLsb' 0 12).toNat →
        t = { tick s with lastSample := w.extractLsb' 0 12, latch := .idle, resp := some .okay }) ∧
      (s.latch = .latched → (w.extractLsb' 0 12).toNat ≥ (s.thresh.extractLsb' 0 12).toNat →
        t = { tick s with lastSample := w.extractLsb' 0 12, resp := some .okay })

/-- 44 R200, R207: CTRL_WR sets PWR, and with a reserved bit set is rejected with ERR_BUS. -/
def Obligations.CtrlWriteSetsPwrOrIsRejected : Prop :=
  ∀ (s : State) (w : Word), decodeTxn ⟨true, 0x0C, w⟩ = .ok (.ctrlWr w) ∧
    (w.extractLsb' 1 31 = 0#31 →
      exec (.ctrlWr w) s = .next { tick s with pwr := w.getLsbD 0, resp := some .okay }) ∧
    (w.extractLsb' 1 31 ≠ 0#31 →
      exec (.ctrlWr w) s = .next { tick s with err := s.err ||| 0b10000#5, resp := some .slverr })

/-- 44 R204: STATUS_WR clears the error bits it writes as 1, writes ERR only, and is always OKAY. -/
def Obligations.StatusWriteClearsWrittenBits : Prop :=
  ∀ (s : State) (w : Word), decodeTxn ⟨true, 0x10, w⟩ = .ok (.statusWr w) ∧ ∃ e : BitVec 5,
    exec (.statusWr w) s = .next { tick s with err := e, resp := some .okay } ∧
    ∀ j, j < 5 → e.getLsbD j = (s.err.getLsbD j && !w.getLsbD (8 + j))

/-- 30 R75: every illegal command gets an access error, whatever its operands. -/
def Obligations.IllegalCommandsAreAccessErrors : Prop :=
  ∀ (s t : State) (we : Bool) (w : Word) (x6 : BitVec 6) (x3 : BitVec 3) (x4 : BitVec 4) (g : Glyph),
    t = { tick s with err := s.err ||| 0b10000#5, resp := some .slverr } →
    exec (.illegalMisaligned1 we x6 w) s = .next t ∧ exec (.illegalMisaligned2 we x6 w) s = .next t ∧
    exec (.illegalMisaligned3 we x6 w) s = .next t ∧ exec (.illegalScanWr w) s = .next t ∧
    exec (.illegalSnapWr w) s = .next t ∧ exec (.illegalRomWr g w) s = .next t ∧
    exec (.illegalUnmapped1C we w) s = .next t ∧ exec (.illegalUnmapped20To3C we x3 w) s = .next t ∧
    exec (.illegalUnmapped40To7C we x4 w) s = .next t

/-- What a write puts into a register, a read in the next cycle returns (70 R268), for the four registers
that are read and written. -/
def Obligations.WriteThenReadReturnsTheWord : Prop :=
  ∀ (s t : State) (w : Word), t.resp = some .okay →
    (exec (.frameWr w) s = .next t → ∃ u, exec .frameRd t = .next u ∧ u.resp = some (.okayData w)) ∧
    (exec (.threshWr w) s = .next t → ∃ u, exec .threshRd t = .next u ∧ u.resp = some (.okayData w)) ∧
    (exec (.ctrlWr w) s = .next t → ∃ u, exec .ctrlRd t = .next u ∧ u.resp = some (.okayData w)) ∧
    (exec (.sampleWr w) s = .next t → s.pulseRem = 0 →
      ∃ u, exec .sampleRd t = .next u ∧ u.resp = some (.okayData w))

/-! ### Errors -/

/-- The events of 10 R33 and 60 R242, by the bit of ERR each sets. -/
def setsErrorBit (i : Instr) (s : State) (j : Nat) : Prop :=
  (j = 0 ∧ ∃ w, i = .frameWr w ∧
    (w.extractLsb' 30 2 ≠ 0#2 ∨ ∃ k, k < 5 ∧ s.cfg.rom (w.extractLsb' (6 * k) 5) = none)) ∨
  (j = 1 ∧ ∃ w, i = .threshWr w ∧
    (w.extractLsb' 12 4 ≠ 0#4 ∨ w.extractLsb' 28 4 ≠ 0#4 ∨
      (w.extractLsb' 16 12).toNat ≤ (w.extractLsb' 0 12).toNat)) ∨
  (j = 2 ∧ ∃ w, i = .sampleWr w ∧ w.extractLsb' 12 20 ≠ 0#20) ∨
  (j = 3 ∧ ∃ w, i = .sampleWr w ∧ w.extractLsb' 12 20 = 0#20 ∧ s.pulseRem ≠ 0) ∨
  (j = 4 ∧ ((∃ w, i = .ctrlWr w ∧ w.extractLsb' 1 31 ≠ 0#31) ∨ isAccessError i.txn))

/-- 60 R241: whatever command is answered SLVERR, the state after it is the state after an IDLE cycle plus
exactly one error bit, the one whose event 60 R242 names, which is never SMP_DROP (its response is OKAY). -/
def Obligations.RejectedTransactionIsPrecise : Prop :=
  ∀ (i : Instr) (s t : State), exec i s = .next t → t.resp = some .slverr →
    ∃ j, j < 5 ∧ j ≠ 3 ∧ setsErrorBit i s j ∧
      t = { tick s with err := s.err ||| BitVec.twoPow 5 j, resp := some .slverr }

/-- 44 R205 and 60 R242: an error bit is 1 after a command exactly when the command's event sets it, or it
was 1 and the command is no STATUS_WR that writes 1 to it. -/
def Obligations.ErrorBitsFollowTheirEvents : Prop :=
  ∀ (i : Instr) (s t : State) (j : Nat), j < 5 → exec i s = .next t →
    (t.err.getLsbD j = true ↔
      setsErrorBit i s j ∨ (s.err.getLsbD j = true ∧ ¬ ∃ w, i = .statusWr w ∧ w.getLsbD (8 + j) = true))

/-! ### What changes what -/

/-- 41 R120: in a cycle without reset, FRAME changes by an accepted FRAME_WR and by nothing else. -/
def Obligations.FrameChangesOnlyByFrameWrite : Prop :=
  ∀ s t : State, plainCycle s → step s = .next t → t.frame ≠ s.frame →
    ∃ w, presentsFrameWr s w ∧ t.frame = w.extractLsb' 0 30 ∧ t.resp = some .okay

/-- 42 R143: at the snapshot edge SNAP takes the pre-edge FRAME, also when a FRAME_WR is presented in that
cycle, and SNAP changes at no other edge but a reset. -/
def Obligations.SnapshotTakesThePreEdgeFrame : Prop :=
  ∀ s : State, plainCycle s → ∃ t, step s = .next t ∧
    ((s.phase = .blank ∧ s.cnt.toNat = s.cfg.blankTicks - 1 ∧ s.idx = 0) → t.snap = s.frame) ∧
    (¬ (s.phase = .blank ∧ s.cnt.toNat = s.cfg.blankTicks - 1 ∧ s.idx = 0) → t.snap = s.snap)

/-- A SAMPLE_WR that the latch judges in the next step: presented, well formed, no pulse active. -/
def judgesSample (s : State) (x : Sample) : Prop :=
  ∃ t w, (hostNext s).presents = some t ∧ decodeTxn t = .ok (.sampleWr w) ∧
    w.extractLsb' 12 20 = 0#20 ∧ s.pulseRem = 0 ∧ x = w.extractLsb' 0 12

/-- 43 R177: judging an accepted sample is the only transition of the latch; nothing else changes LATCHED
except reset. -/
def Obligations.LatchMovesOnlyOnJudgedSamples : Prop :=
  ∀ s t : State, plainCycle s → step s = .next t →
    (∀ x, judgesSample s x →
      (s.latch = .idle → (t.latch = .latched ↔ x.toNat > (s.thresh.extractLsb' 16 12).toNat)) ∧
      (s.latch = .latched → (t.latch = .idle ↔ x.toNat < (s.thresh.extractLsb' 0 12).toNat))) ∧
    ((¬ ∃ x, judgesSample s x) → t.latch = s.latch)

/-- 43 R184: PULSE_CNT counts the IDLE to LATCHED transitions, modulo 2^16, and a transition is what starts
a pulse. -/
def Obligations.PulseCountCountsTransitions : Prop :=
  ∀ s t : State, plainCycle s → step s = .next t →
    (s.latch = .idle ∧ t.latch = .latched →
      t.pulseCnt = s.pulseCnt + 1 ∧ t.pulseRem.toNat = s.cfg.pulseTicks) ∧
    (¬ (s.latch = .idle ∧ t.latch = .latched) →
      t.pulseCnt = s.pulseCnt ∧ t.pulseRem.toNat = s.pulseRem.toNat - 1)

/-- THRESH changes only by an accepted THRESH_WR (43 R171) and PWR only by an accepted CTRL_WR: "MPX never
changes PWR itself" (44 R201). -/
def Obligations.ThreshAndPwrChangeOnlyByTheirWrites : Prop :=
  ∀ s t : State, plainCycle s → step s = .next t →
    (t.thresh ≠ s.thresh → t.resp = some .okay ∧
      ∃ x, (hostNext s).presents = some x ∧ decodeTxn x = .ok (.threshWr t.thresh)) ∧
    (t.pwr ≠ s.pwr → t.resp = some .okay ∧
      ∃ x w, (hostNext s).presents = some x ∧ decodeTxn x = .ok (.ctrlWr w) ∧ t.pwr = w.getLsbD 0)

/-- No step changes the configuration. For the ROM that is 10 R34. That the other parameters stand in
`State.cfg` beside it and never change is the model's reading of 00 R7 and 10 R39, which call them arguments
of the model and no state of MPX (DEDUCED, log entry 3). -/
def Obligations.StepKeepsTheConfiguration : Prop :=
  ∀ s t : State, step s = .next t → t.cfg = s.cfg

/-! ### Reset, configuration, and the invariant -/

/-- 70 R260 with the values of 10 R36: a reset edge gives every element its reset value, from any state
(one before the first reset too), a transaction presented in that cycle has no response and no effect, and
in the cycle after it every output is off. -/
def Obligations.ResetEdgeGivesTheResetValues : Prop :=
  ∀ (s : State) (txn : Option Txn), s.cfg.legal = true → hostNext s = .cycle true txn →
    ∃ t, step s = .next t ∧ t.frame = 0x1F7DF7DF ∧ t.snap = 0x1F7DF7DF ∧ t.idx = 0 ∧ t.phase = .blank ∧
      t.cnt = 0 ∧ t.thresh = 0x0FFF0000 ∧ t.lastSample = 0 ∧ t.latch = .idle ∧ t.pulseCnt = 0 ∧
      t.pulseRem = 0 ∧ t.pwr = false ∧ t.err = 0 ∧ t.resp = none ∧ t.cfg = s.cfg ∧
      t.resetDone = true ∧ t.host = s.host.tail ∧
      logicalOutputs t = { dsel := 0, seg := 0, trig := false, pwr := false }

/-- 00 R7, R8 and 40 R101: a step is refused exactly under a configuration outside the constraints; under
any other, every step ends in a next state. Two clauses are the model's choice: that the refusal is the
step's (DEDUCED, log entry 3), and that of 40 R101 (a) only the validity of codes 0 to 9 is asked, any valid
pattern being taken as the digit (PRESUMED, log entry 13). -/
def Obligations.OnlyIllegalConfigurationsAreRefused : Prop :=
  ∀ s : State,
    let c := s.cfg
    let legal := 0 < c.fClk ∧ 1 ≤ c.dwellTicks ∧ c.dwellTicks ≤ 2 ^ 24 ∧
      1 ≤ c.blankTicks ∧ c.blankTicks ≤ 2 ^ 24 ∧ 1 ≤ c.pulseTicks ∧ c.pulseTicks ≤ 2 ^ 24 - 1 ∧
      c.base % 256 = 0 ∧ c.segRom.length = 32 ∧
      (∀ d, d < 10 → ∃ p, c.rom (BitVec.ofNat 5 d) = some p) ∧ c.rom 30 = some 0x1FF ∧ c.rom 31 = some 0
    (legal → ∃ t, step s = .next t) ∧ (¬ legal → step s = .refused .illegalConfiguration)

/-- Before the first reset edge nothing makes the machine ready but a reset cycle (70 R261, R263 (1)), and
power loss takes it back there (60 R253). How the model holds that is its own choice (log entries 5, 10). -/
def Obligations.OnlyAResetCycleEndsTheUnspecifiedState : Prop :=
  ∀ s : State, s.cfg.legal = true →
    (hostNext s = .powerCycle → ∃ t, step s = .next t ∧ t.resetDone = false) ∧
    (s.resetDone = false → ∀ n, (∀ op ∈ s.host.take n, ∀ txn, op ≠ .cycle true txn) →
      ∃ t, RunsTo n s t ∧ t.resetDone = false)

/-- The reset state of every legal configuration meets the invariant of 10 R37, and so does
`State.reset`. -/
def Obligations.ResetStatesMeetTheInvariant : Prop :=
  (∀ (c : Config) (host : List HostOp), c.legal = true → (State.resetWith c host).Inv) ∧
  State.reset.Inv

/-- 10 R37 (a) to (f): every step keeps the invariant. -/
def Obligations.EveryStepKeepsTheInvariant : Prop :=
  ∀ s t : State, s.Inv → step s = .next t → t.Inv

/-! ### Outputs -/

/-- 42 R144: in BLANK every digit select is inactive and every segment off. -/
def Obligations.BlankTurnsEveryOutputOff : Prop :=
  ∀ s : State, s.resetDone = true → s.phase = .blank →
    (∀ k, k < 5 → (logicalOutputs s).dsel.getLsbD k = false) ∧
    (∀ j, j < 9 → (logicalOutputs s).seg.getLsbD j = false)

/-- 42 R145, R146: in DRIVE exactly line IDX is selected, and the segments show slot IDX of SNAP with its
decimal-point flag. -/
def Obligations.DriveShowsTheSlotOfItsPosition : Prop :=
  ∀ s : State, s.Inv → s.resetDone = true → s.phase = .drive →
    (∀ k, k < 5 → (logicalOutputs s).dsel.getLsbD k = decide (k = s.idx.toNat)) ∧
    ∃ p, s.cfg.rom (s.snap.extractLsb' (6 * s.idx.toNat) 5) = some p ∧
      ∀ j, j < 9 → (logicalOutputs s).seg.getLsbD j =
        if j = 7 then p.getLsbD 7 || s.snap.getLsbD (6 * s.idx.toNat + 5) else p.getLsbD j

/-- 42 R148, 43 R183, 44 R201: the pin levels under each polarity. -/
def Obligations.PinLevelsFollowThePolarities : Prop :=
  ∀ s : State,
    (∀ j, j < 9 → (pins s).seg.getLsbD j =
      if s.cfg.segActiveLow then !(logicalOutputs s).seg.getLsbD j else (logicalOutputs s).seg.getLsbD j) ∧
    (∀ k, k < 5 → (pins s).dsel.getLsbD k =
      if s.cfg.dselActiveHigh then (logicalOutputs s).dsel.getLsbD k
      else !(logicalOutputs s).dsel.getLsbD k) ∧
    (pins s).trig = (if s.cfg.trigActiveHigh then (logicalOutputs s).trig else !(logicalOutputs s).trig) ∧
    (pins s).pwr = (if s.cfg.pwrActiveHigh then (logicalOutputs s).pwr else !(logicalOutputs s).pwr) ∧
    (s.resetDone = true → (logicalOutputs s).trig = decide (s.pulseRem ≠ 0) ∧
      (logicalOutputs s).pwr = s.pwr)

/-- 42 R147 and 10 R24: the pins show PHASE, IDX, SNAP, PULSE_REM and PWR only: two states that agree on
those have the same pins, whatever FRAME, the thresholds, the errors and the host hold. -/
def Obligations.PinsDependOnTheDisplayedStateOnly : Prop :=
  ∀ s t : State, s.Inv → t.Inv → s.resetDone = true → t.resetDone = true → s.cfg = t.cfg →
    s.phase = t.phase → s.idx = t.idx → s.snap = t.snap → s.pulseRem = t.pulseRem → s.pwr = t.pwr →
    pins s = pins t

/-! ### Timing, over any number of cycles and any host -/

/-- 42 R141: from the start of a sweep, after any number of cycles the scan stands where the fixed sequence
puts it, whatever the host does but reset: the position, the phase, and the cycle within the phase. -/
def Obligations.ScanStandsWhereTheSequencePutsIt : Prop :=
  ∀ (n : Nat) (s : State), s.cfg.legal = true → s.resetDone = true →
    s.phase = .blank → s.cnt = 0 → s.idx = 0 → quietFor n s →
    ∃ t, RunsTo n s t ∧
      t.idx.toNat = n / (s.cfg.blankTicks + s.cfg.dwellTicks) % 5 ∧
      (n % (s.cfg.blankTicks + s.cfg.dwellTicks) < s.cfg.blankTicks →
        t.phase = .blank ∧ t.cnt.toNat = n % (s.cfg.blankTicks + s.cfg.dwellTicks)) ∧
      (s.cfg.blankTicks ≤ n % (s.cfg.blankTicks + s.cfg.dwellTicks) →
        t.phase = .drive ∧
        t.cnt.toNat + s.cfg.blankTicks = n % (s.cfg.blankTicks + s.cfg.dwellTicks))

/-- 42 R150: over a sweep each digit select is active in exactly the DWELL_TICKS cycles of its position's
DRIVE phase, and inactive in all others. -/
def Obligations.EachDigitIsSelectedForExactlyItsDwell : Prop :=
  ∀ (n k : Nat) (s : State), s.cfg.legal = true → s.resetDone = true →
    s.phase = .blank → s.cnt = 0 → s.idx = 0 → n < s.cfg.sweepTicks → k < 5 → quietFor n s →
    ∃ t, RunsTo n s t ∧
      ((logicalOutputs t).dsel.getLsbD k = true ↔
        k * s.cfg.positionTicks + s.cfg.blankTicks ≤ n ∧ n < (k + 1) * s.cfg.positionTicks)

/-- 41 R126: from one snapshot edge to the next, SNAP keeps one value, and the next snapshot edge gives it
the FRAME of the cycle that edge ends. -/
def Obligations.OneFrameIsShownThroughoutASweep : Prop :=
  ∀ s : State, s.Inv → s.resetDone = true → s.phase = .drive → s.cnt = 0 → s.idx = 0 →
    (∀ n, n < s.cfg.sweepTicks → quietFor n s → ∃ t, RunsTo n s t ∧ t.snap = s.snap) ∧
    (quietFor s.cfg.sweepTicks s → ∃ u t, RunsTo (s.cfg.sweepTicks - 1) s u ∧
      RunsTo s.cfg.sweepTicks s t ∧ t.snap = u.frame ∧ t.phase = .drive ∧ t.cnt = 0 ∧ t.idx = 0)

/-- An entry of the host's list that presents no FRAME_WR. -/
def presentsNoFrameWr (op : HostOp) : Prop :=
  ∀ t w, op.presents = some t → decodeTxn t ≠ .ok (.frameWr w)

/-- 42 R153, 70 R266: a frame accepted by a FRAME_WR is on display at a snapshot edge that ends at most
T_SWEEP cycles after the write's cycle, if no other FRAME_WR follows within that time. -/
def Obligations.WrittenFrameIsDisplayedWithinASweep : Prop :=
  ∀ (s : State) (w : Word), s.Inv → plainCycle s → presentsFrameWr s w →
    frameLegal s.cfg w = true → quietFor (1 + s.cfg.sweepTicks) s →
    (∀ op ∈ s.host.tail.take s.cfg.sweepTicks, presentsNoFrameWr op) →
    ∃ m t, 1 ≤ m ∧ m ≤ s.cfg.sweepTicks ∧ RunsTo (1 + m) s t ∧
      t.snap = w.extractLsb' 0 30 ∧ t.phase = .drive ∧ t.cnt = 0 ∧ t.idx = 0

/-- 70 R262: with BLANK_TICKS = 1 the first sweep after reset shows the reset frame: every segment is off
in every cycle up to the second snapshot edge, whatever the host writes. -/
def Obligations.FirstSweepAfterResetIsBlank : Prop :=
  ∀ (c : Config) (host : List HostOp) (n : Nat), c.legal = true → c.blankTicks = 1 →
    n ≤ c.sweepTicks → quietFor n (State.resetWith c host) →
    ∃ t, RunsTo n (State.resetWith c host) t ∧ t.snap = 0x1F7DF7DF ∧ (logicalOutputs t).seg = 0

/-- 43 R182: a trigger makes the trigger output active in exactly the next PULSE_TICKS cycles, whatever the
host does but reset, and idle in the cycle after them. -/
def Obligations.PulseLastsExactlyItsTicks : Prop :=
  ∀ (s : State) (x : Sample), plainCycle s → judgesSample s x → s.latch = .idle →
    x.toNat > (s.thresh.extractLsb' 16 12).toNat →
    (∀ n, n < s.cfg.pulseTicks → quietFor (1 + n) s →
      ∃ t, RunsTo (1 + n) s t ∧ (logicalOutputs t).trig = true) ∧
    (quietFor (1 + s.cfg.pulseTicks) s →
      ∃ t, RunsTo (1 + s.cfg.pulseTicks) s t ∧ (logicalOutputs t).trig = false)

/-- 43 R184: between two pulses there is an accepted sample below the reset threshold: if PULSE_CNT has
moved since a LATCHED state, some step in between judged such a sample. -/
def Obligations.PulsesAreSeparatedByALowSample : Prop :=
  ∀ (n : Nat) (s t : State), s.cfg.legal = true → s.resetDone = true → s.latch = .latched →
    quietFor n s → RunsTo n s t → t.pulseCnt ≠ s.pulseCnt →
    ∃ k u x, k < n ∧ RunsTo k s u ∧ judgesSample u x ∧ x.toNat < (u.thresh.extractLsb' 0 12).toNat

/-- 70 R267: a well-formed sample written in any of the PULSE_TICKS cycles after a trigger is dropped: the
latch and LAST_SAMPLE keep their values and SMP_DROP is set. -/
def Obligations.SamplesInThePulseAreDropped : Prop :=
  ∀ (s : State) (x : Sample) (n : Nat) (w : Word), plainCycle s → judgesSample s x → s.latch = .idle →
    x.toNat > (s.thresh.extractLsb' 16 12).toNat → n < s.cfg.pulseTicks → quietFor (1 + n) s →
    w.extractLsb' 12 20 = 0#20 →
    ∃ t u, RunsTo (1 + n) s t ∧ exec (.sampleWr w) t = .next u ∧ u.latch = t.latch ∧
      u.lastSample = t.lastSample ∧ u.pulseCnt = t.pulseCnt ∧ u.resp = some .okay ∧
      u.err.getLsbD 3 = true

/-- An entry of the host's list that presents no THRESH_WR. -/
def presentsNoThreshWr (op : HostOp) : Prop :=
  ∀ t w, op.presents = some t → decodeTxn t ≠ .ok (.threshWr w)

/-- 70 R263, 43 R175: the reset THRESH can never trigger: until a THRESH_WR, the latch stays IDLE and no
pulse is emitted, whatever samples the host writes. -/
def Obligations.ResetThresholdNeverTriggers : Prop :=
  ∀ (c : Config) (host : List HostOp) (n : Nat), c.legal = true →
    quietFor n (State.resetWith c host) → (∀ op ∈ host.take n, presentsNoThreshWr op) →
    ∃ t, RunsTo n (State.resetWith c host) t ∧ t.latch = .idle ∧ t.pulseRem = 0 ∧ t.pulseCnt = 0

/-- 30 R81: WAITPULSE reads STATUS once a cycle and ends with the first read whose bit 1 is 0: the loop
goes on for PULSE_REM reads and ends with the next one. That the loop is an entry of the host's list is the
model's choice (log entry 11). -/
def Obligations.WaitPulseEndsWithThePulse : Prop :=
  ∀ (s : State) (rest : List HostOp), s.cfg.legal = true → s.resetDone = true →
    s.host = .waitPulse :: rest →
    (∀ n, n ≤ s.pulseRem.toNat → ∃ t, RunsTo n s t ∧ t.host = .waitPulse :: rest) ∧
    ∃ t d, RunsTo (s.pulseRem.toNat + 1) s t ∧ t.host = rest ∧ t.resp = some (.okayData d) ∧
      d.getLsbD 1 = false

/-! ### Volts and codes (43 R170) -/

/-- 43 R170: the programmed codes decide as the voltages do: for a threshold a/b volts at full scale p/q
volts, `code > c(θ)` exactly when the code's voltage is above θ, and `code < c(θr)` exactly when it is
below θr, for every code but 4095 in the second. Products stand for the quotients of the rule. -/
def Obligations.ThresholdCodesDecideAsVoltages : Prop :=
  ∀ (a b p q code : Nat), 0 < b → 0 < p → 0 < q → code ≤ 4095 →
    (triggerCode a b p q < code ↔ a * (4096 * q) < code * p * b) ∧
    (code < 4095 → (code < resetCode a b p q ↔ code * p * b < a * (4096 * q)))

/-! ### The host reference (48) -/

/-- 48 R222, R227: the frames of the reference converter and of the ID screen are frames that MPX accepts:
the converter's under every legal configuration, with the four digits of N in slots 0, 1, 3 and 4; the ID
frame under the reference ROM, whose letters are the configuration's. -/
def Obligations.HostReferenceFramesAreAccepted : Prop :=
  ∀ (s : State) (num : Int) (den d : Nat), s.cfg.legal = true →
    exec (.frameWr (convertWord num den)) s =
      .next { tick s with frame := convertFrame (milliVolts num den), resp := some .okay } ∧
    (let f := convertFrame (milliVolts num den)
     (glyphOf f 0).toNat * 1000 + (glyphOf f 1).toNat * 100 + (glyphOf f 3).toNat * 10 +
       (glyphOf f 4).toNat = milliVolts num den ∧ glyphOf f 2 = 31 ∧
     ∀ k, k < 5 → dpOf f k = decide (k = 0)) ∧
    (s.cfg.segRom = referenceRom → d < 10 → ∃ t, exec (.frameWr (idFrameWord d)) s = .next t ∧
      t.resp = some .okay ∧ glyphOf t.frame 4 = BitVec.ofNat 5 d)
end

