-- ==== Sys2Proof/Laws/Decode.lean ====
section
/-! SUPPORT. The opcode table covers the commands: every one of the 512 matches exactly one row, so the
order of the rows plays no part and the decoder never rejects a command. -/
namespace Sys2Proof

/-- The number of rows of the table that match a command. -/
def rowCount (c : Cmd) : Nat := (opcodeTable.filter fun r => r.matches c).length

set_option maxRecDepth 8000 in
/-- Each command matches exactly one row. -/
theorem rowCount_eq_one (c : Cmd) : rowCount c = 1 := by
  revert c; decide

/-- Some row matches, so the search finds one. -/
theorem find_row_isSome (c : Cmd) : ∃ r, opcodeTable.find? (fun r => r.matches c) = some r := by
  have h := rowCount_eq_one c
  unfold rowCount at h
  cases hf : opcodeTable.find? (fun r => r.matches c) with
  | some r => exact ⟨r, rfl⟩
  | none =>
    rw [List.find?_eq_none] at hf
    have : opcodeTable.filter (fun r => r.matches c) = [] := by
      rw [List.filter_eq_nil_iff]; exact fun r hr => hf r hr
    simp [this] at h

@[simp] theorem ofCmd_cmd (c : Cmd) (w : Word) : (Txn.ofCmd c w).cmd = c := by
  revert c
  simp only [Txn.cmd, Txn.ofCmd, Cmd.we, Cmd.off]
  decide

@[simp] theorem ofCmd_wdata (c : Cmd) (w : Word) : (Txn.ofCmd c w).wdata = w := rfl

/-- A transaction is its command and its data word. -/
theorem ofCmd_eta (t : Txn) : Txn.ofCmd t.cmd t.wdata = t := by
  obtain ⟨we, off, w⟩ := t
  have : ∀ we off, (BitVec.ofBool we ++ off : Cmd).getLsbD 8 = we ∧
      (BitVec.ofBool we ++ off : Cmd).extractLsb' 0 8 = off := by decide
  simp only [Txn.ofCmd, Txn.cmd, Cmd.we, Cmd.off, this we off]

/-- The decoder's answer from the number of the first row that matches: that number can be found by
`decide` for every value of the operands. -/
theorem decodeTxn_of_row (t : Txn) (k : Nat) (r : Row)
    (hk : opcodeTable.findIdx? (fun r => r.matches t.cmd) = some k) (hr : opcodeTable[k]? = some r) :
    decodeTxn t = .ok (r.build t.cmd t.wdata) := by
  obtain ⟨hlt, hm, hmin⟩ := List.findIdx?_eq_some_iff_getElem.mp hk
  have hget : opcodeTable[k] = r := by
    rw [List.getElem?_eq_getElem hlt] at hr; exact Option.some.inj hr
  have hf : opcodeTable.find? (fun r => r.matches t.cmd) = some r := by
    rw [List.find?_eq_some_iff_getElem]
    exact ⟨hget ▸ hm, k, hlt, hget, fun j hj => by simpa using hmin j hj⟩
  simp [decodeTxn, hf]

end Sys2Proof
end

