-- ==== Sys2Proof/Laws/State.lean ====
section
/-! SUPPORT. What TICK, the reset edge and the host's list leave unchanged and what they set, one lemma per
field, so that no proof unfolds a record update. -/
namespace Sys2Proof.Machine

/-! ### TICK, scan part -/

@[simp] theorem scanStep_frame (s : State) : (scanStep s).frame = s.frame := by
  unfold scanStep; cases s.phase <;> dsimp only <;> split <;> rfl

@[simp] theorem scanStep_thresh (s : State) : (scanStep s).thresh = s.thresh := by
  unfold scanStep; cases s.phase <;> dsimp only <;> split <;> rfl

@[simp] theorem scanStep_lastSample (s : State) : (scanStep s).lastSample = s.lastSample := by
  unfold scanStep; cases s.phase <;> dsimp only <;> split <;> rfl

@[simp] theorem scanStep_latch (s : State) : (scanStep s).latch = s.latch := by
  unfold scanStep; cases s.phase <;> dsimp only <;> split <;> rfl

@[simp] theorem scanStep_pulseCnt (s : State) : (scanStep s).pulseCnt = s.pulseCnt := by
  unfold scanStep; cases s.phase <;> dsimp only <;> split <;> rfl

@[simp] theorem scanStep_pwr (s : State) : (scanStep s).pwr = s.pwr := by
  unfold scanStep; cases s.phase <;> dsimp only <;> split <;> rfl

@[simp] theorem scanStep_err (s : State) : (scanStep s).err = s.err := by
  unfold scanStep; cases s.phase <;> dsimp only <;> split <;> rfl

@[simp] theorem scanStep_cfg (s : State) : (scanStep s).cfg = s.cfg := by
  unfold scanStep; cases s.phase <;> dsimp only <;> split <;> rfl

@[simp] theorem scanStep_host (s : State) : (scanStep s).host = s.host := by
  unfold scanStep; cases s.phase <;> dsimp only <;> split <;> rfl

@[simp] theorem scanStep_resetDone (s : State) : (scanStep s).resetDone = s.resetDone := by
  unfold scanStep; cases s.phase <;> dsimp only <;> split <;> rfl

@[simp] theorem scanStep_draws (s : State) : (scanStep s).draws = s.draws := by
  unfold scanStep; cases s.phase <;> dsimp only <;> split <;> rfl

/-- SNAP takes FRAME at the snapshot edge and changes at no other (42 R143). -/
theorem scanStep_snap (s : State) :
    (scanStep s).snap = if snapshotEdge s then s.frame else s.snap := by
  unfold scanStep snapshotEdge
  cases hp : s.phase <;> dsimp only <;> split <;> simp_all

/-! ### TICK -/

@[simp] theorem tick_frame (s : State) : (tick s).frame = s.frame := scanStep_frame s
@[simp] theorem tick_thresh (s : State) : (tick s).thresh = s.thresh := scanStep_thresh s
@[simp] theorem tick_lastSample (s : State) : (tick s).lastSample = s.lastSample := scanStep_lastSample s
@[simp] theorem tick_latch (s : State) : (tick s).latch = s.latch := scanStep_latch s
@[simp] theorem tick_pulseCnt (s : State) : (tick s).pulseCnt = s.pulseCnt := scanStep_pulseCnt s
@[simp] theorem tick_pulseRem (s : State) : (tick s).pulseRem = pulseStep s.pulseRem := rfl
@[simp] theorem tick_pwr (s : State) : (tick s).pwr = s.pwr := scanStep_pwr s
@[simp] theorem tick_err (s : State) : (tick s).err = s.err := scanStep_err s
@[simp] theorem tick_cfg (s : State) : (tick s).cfg = s.cfg := scanStep_cfg s
@[simp] theorem tick_host (s : State) : (tick s).host = s.host := scanStep_host s
@[simp] theorem tick_resetDone (s : State) : (tick s).resetDone = s.resetDone := scanStep_resetDone s
@[simp] theorem tick_draws (s : State) : (tick s).draws = s.draws := scanStep_draws s
@[simp] theorem tick_resp (s : State) : (tick s).resp = none := rfl
theorem tick_snap (s : State) : (tick s).snap = if snapshotEdge s then s.frame else s.snap :=
  scanStep_snap s

/-- A phase that goes on: CNT counts, IDX and PHASE stay (42 R142). -/
theorem tick_goes_on (s : State) (h : phaseEnds s = false) :
    (tick s).phase = s.phase ∧ (tick s).cnt = s.cnt + 1 ∧ (tick s).idx = s.idx := by
  cases hp : s.phase <;> simp [tick, scanStep, hp, h]

/-- BLANK ends: DRIVE begins at CNT 0, IDX stays (42 R142). -/
theorem tick_blank_ends (s : State) (hp : s.phase = .blank) (h : phaseEnds s = true) :
    (tick s).phase = .drive ∧ (tick s).cnt = 0 ∧ (tick s).idx = s.idx := by
  simp [tick, scanStep, hp, h]

/-- DRIVE ends: BLANK of the next position begins at CNT 0 (42 R142). -/
theorem tick_drive_ends (s : State) (hp : s.phase = .drive) (h : phaseEnds s = true) :
    (tick s).phase = .blank ∧ (tick s).cnt = 0 ∧ (tick s).idx = nextIdx s.idx := by
  simp [tick, scanStep, hp, h]

/-! ### The reset edge -/

@[simp] theorem resetEdge_cfg (s : State) : (resetEdge s).cfg = s.cfg := rfl
@[simp] theorem resetEdge_host (s : State) : (resetEdge s).host = s.host := rfl
@[simp] theorem resetEdge_resetDone (s : State) : (resetEdge s).resetDone = true := rfl

/-! ### The host's list -/

@[simp] theorem hostTaken_frame (s : State) : (hostTaken s).frame = s.frame := rfl
@[simp] theorem hostTaken_snap (s : State) : (hostTaken s).snap = s.snap := rfl
@[simp] theorem hostTaken_idx (s : State) : (hostTaken s).idx = s.idx := rfl
@[simp] theorem hostTaken_phase (s : State) : (hostTaken s).phase = s.phase := rfl
@[simp] theorem hostTaken_cnt (s : State) : (hostTaken s).cnt = s.cnt := rfl
@[simp] theorem hostTaken_thresh (s : State) : (hostTaken s).thresh = s.thresh := rfl
@[simp] theorem hostTaken_lastSample (s : State) : (hostTaken s).lastSample = s.lastSample := rfl
@[simp] theorem hostTaken_latch (s : State) : (hostTaken s).latch = s.latch := rfl
@[simp] theorem hostTaken_pulseCnt (s : State) : (hostTaken s).pulseCnt = s.pulseCnt := rfl
@[simp] theorem hostTaken_pulseRem (s : State) : (hostTaken s).pulseRem = s.pulseRem := rfl
@[simp] theorem hostTaken_pwr (s : State) : (hostTaken s).pwr = s.pwr := rfl
@[simp] theorem hostTaken_err (s : State) : (hostTaken s).err = s.err := rfl
@[simp] theorem hostTaken_cfg (s : State) : (hostTaken s).cfg = s.cfg := rfl
@[simp] theorem hostTaken_host (s : State) : (hostTaken s).host = s.host.tail := rfl
@[simp] theorem hostTaken_resetDone (s : State) : (hostTaken s).resetDone = s.resetDone := rfl
@[simp] theorem hostTaken_draws (s : State) : (hostTaken s).draws = s.draws := rfl

@[simp] theorem phaseEnds_hostTaken (s : State) : phaseEnds (hostTaken s) = phaseEnds s := rfl
@[simp] theorem snapshotEdge_hostTaken (s : State) : snapshotEdge (hostTaken s) = snapshotEdge s := rfl

/-- TICK and the taking of the host's next entry touch different fields. -/
theorem tick_hostTaken (s : State) : tick (hostTaken s) = hostTaken (tick s) := by
  cases hp : s.phase <;> cases he : phaseEnds s <;>
    simp [tick, scanStep, hp, he] <;> rfl

@[simp] theorem hostNext_presentNext (t : Txn) (s : State) :
    hostNext (presentNext t s) = .cycle false (some t) := rfl

@[simp] theorem hostTaken_presentNext (t : Txn) (s : State) :
    hostTaken (presentNext t s) = hostTaken s := rfl

end Sys2Proof.Machine
end

