-- ==== Sys2Proof/Laws/Ops.lean ====
section
/-! SUPPORT. One lemma for each shared operation that says all it can do, for proofs to cite. -/
namespace Sys2Proof.Machine

/-- A read ends in the state after TICK with its response recorded. -/
@[simp] theorem respondData_eq (s : State) (d : Word) :
    respondData s d = .next { tick s with resp := some (.okayData d) } := rfl

/-- A rejection ends in the state after TICK with one error bit set and SLVERR recorded. -/
@[simp] theorem reject_eq (s : State) (e : ErrBit) :
    reject s e = .next { tick s with err := setErr s.err e, resp := some .slverr } := rfl

/-- An access error is a rejection with ERR_BUS. -/
@[simp] theorem accessError_eq (s : State) :
    accessError s = .next { tick s with err := setErr s.err .errBus, resp := some .slverr } := rfl

/-- What every command leaves to TICK: the scan, and the model's own fields. -/
structure ScanAsTick (s t : State) : Prop where
  phase : t.phase = (tick s).phase
  cnt : t.cnt = (tick s).cnt
  idx : t.idx = (tick s).idx
  snap : t.snap = (tick s).snap
  cfg : t.cfg = s.cfg
  host : t.host = s.host
  resetDone : t.resetDone = s.resetDone
  draws : t.draws = s.draws

theorem ScanAsTick.tick (s : State) : ScanAsTick s (tick s) := by
  constructor <;> simp

/-- The pre-edge state decides the trigger: only SAMPLE_WR with no pulse active can start one. -/
theorem acceptSample_scan (x : Sample) (s : State) : ScanAsTick s (acceptSample x s) := by
  constructor <;> simp [acceptSample]

theorem dropSample_scan (s : State) : ScanAsTick s (dropSample s) := by
  constructor <;> simp [dropSample]

/-- Every command ends in a next state, and leaves the scan and the model's own fields to TICK. -/
theorem exec_next (i : Instr) (s : State) : ∃ t, exec i s = .next t ∧ ScanAsTick s t := by
  cases i <;> simp only [exec, execFrameRd, execThreshRd, execSampleRd, execCtrlRd, execStatusRd,
      execScanRd, execSnapRd, execRomRd, execStatusWr, execIllegalMisaligned1, execIllegalMisaligned2,
      execIllegalMisaligned3, execIllegalScanWr, execIllegalSnapWr, execIllegalRomWr,
      execIllegalUnmapped1C, execIllegalUnmapped20To3C, execIllegalUnmapped40To7C, respondData_eq,
      accessError_eq, execFrameWr, execThreshWr, execCtrlWr, execSampleWr, reject_eq] <;>
    (try split) <;> (try split) <;>
    first
    | exact ⟨_, rfl, acceptSample_scan _ s⟩
    | exact ⟨_, rfl, dropSample_scan s⟩
    | exact ⟨_, rfl, by constructor <;> simp⟩

/-- The decoder never rejects a transaction. -/
theorem decodeTxn_ok (t : Txn) : ∃ i, decodeTxn t = .ok i := by
  obtain ⟨r, hr⟩ := find_row_isSome t.cmd
  exact ⟨r.build t.cmd t.wdata, by simp [decodeTxn, hr]⟩

/-- A reset cycle is the reset edge, whatever is presented. -/
@[simp] theorem runCycle_reset (txn : Option Txn) (s : State) :
    runCycle true txn s = .next (resetEdge s) := rfl

/-- An IDLE cycle is TICK alone. -/
theorem runCycle_idle (s : State) (h : s.resetDone = true) :
    runCycle false none s = .next (tick s) := by
  simp [runCycle, h]

/-- A cycle that presents a transaction runs its command. -/
theorem runCycle_txn (t : Txn) (i : Instr) (s : State) (h : s.resetDone = true)
    (hd : decodeTxn t = .ok i) : runCycle false (some t) s = exec i s := by
  simp [runCycle, h, hd]

/-- Before the first reset edge every cycle but a reset is unspecified. -/
theorem runCycle_unspecified (txn : Option Txn) (s : State) (h : s.resetDone = false) :
    runCycle false txn s = .next (unspecifiedCycle txn s) := by
  simp [runCycle, h]

/-- The read of WAITPULSE decodes to STATUS_RD. -/
theorem decodeTxn_statusRead : decodeTxn statusReadTxn = .ok .statusRd := by decide

end Sys2Proof.Machine
end

