-- ==== Sys2Proof/Laws/Exec.lean ====
section
/-! SUPPORT. Which command writes which element, one inversion lemma per element: what a command does to it
if the command ends in `t`. -/
namespace Sys2Proof.Machine

/-- The shared unfolding of the commands down to the states they end in. -/
theorem exec_latch_parts (i : Instr) (s t : State) (h : exec i s = .next t) :
    (t.latch = s.latch ∧ t.pulseCnt = s.pulseCnt ∧ t.pulseRem = pulseStep s.pulseRem ∧
      t.lastSample = s.lastSample) ∨
    (∃ w, i = .sampleWr w ∧ sampleLegal w = true ∧ s.pulseBusy = false ∧
      t = acceptSample (sampleField w) s) := by
  cases i with
  | sampleWr w =>
    simp only [exec, execSampleWr, reject_eq] at h
    split at h
    · split at h
      · cases h; exact .inl (by simp [dropSample])
      · rename_i hl hb
        cases h; exact .inr ⟨w, rfl, hl, by simpa using hb, rfl⟩
    · cases h; exact .inl (by simp)
  | frameWr w | threshWr w | ctrlWr w =>
    simp only [exec, execFrameWr, execThreshWr, execCtrlWr, reject_eq] at h
    split at h <;> (cases h; exact .inl (by simp))
  | _ => cases h; exact .inl (by simp)

/-- FRAME is written by an accepted FRAME_WR only (41 R120). -/
theorem exec_frame (i : Instr) (s t : State) (h : exec i s = .next t) :
    t.frame = s.frame ∨
    (∃ w, i = .frameWr w ∧ frameLegal s.cfg w = true ∧ t.frame = frameField w ∧ t.resp = some .okay) := by
  cases i with
  | sampleWr w =>
    simp only [exec, execSampleWr, reject_eq] at h
    split at h
    · split at h <;> (cases h; exact .inl (by simp [dropSample, acceptSample]))
    · cases h; exact .inl (by simp)
  | frameWr w =>
    simp only [exec, execFrameWr, reject_eq] at h
    split at h
    · rename_i hl; cases h; exact .inr ⟨w, rfl, hl, rfl, rfl⟩
    · cases h; exact .inl (by simp)
  | threshWr w | ctrlWr w =>
    simp only [exec, execThreshWr, execCtrlWr, reject_eq] at h
    split at h <;> (cases h; exact .inl (by simp))
  | _ => cases h; exact .inl (by simp)

/-- THRESH is written by an accepted THRESH_WR only (43 R171). -/
theorem exec_thresh (i : Instr) (s t : State) (h : exec i s = .next t) :
    t.thresh = s.thresh ∨
    (∃ w, i = .threshWr w ∧ threshLegal w = true ∧ t.thresh = w ∧ t.resp = some .okay) := by
  cases i with
  | sampleWr w =>
    simp only [exec, execSampleWr, reject_eq] at h
    split at h
    · split at h <;> (cases h; exact .inl (by simp [dropSample, acceptSample]))
    · cases h; exact .inl (by simp)
  | threshWr w =>
    simp only [exec, execThreshWr, reject_eq] at h
    split at h
    · rename_i hl; cases h; exact .inr ⟨w, rfl, hl, rfl, rfl⟩
    · cases h; exact .inl (by simp)
  | frameWr w | ctrlWr w =>
    simp only [exec, execFrameWr, execCtrlWr, reject_eq] at h
    split at h <;> (cases h; exact .inl (by simp))
  | _ => cases h; exact .inl (by simp)

/-- PWR is written by an accepted CTRL_WR only (44 R200, R201). -/
theorem exec_pwr (i : Instr) (s t : State) (h : exec i s = .next t) :
    t.pwr = s.pwr ∨
    (∃ w, i = .ctrlWr w ∧ ctrlLegal w = true ∧ t.pwr = pwrField w ∧ t.resp = some .okay) := by
  cases i with
  | sampleWr w =>
    simp only [exec, execSampleWr, reject_eq] at h
    split at h
    · split at h <;> (cases h; exact .inl (by simp [dropSample, acceptSample]))
    · cases h; exact .inl (by simp)
  | ctrlWr w =>
    simp only [exec, execCtrlWr, reject_eq] at h
    split at h
    · rename_i hl; cases h; exact .inr ⟨w, rfl, hl, rfl, rfl⟩
    · cases h; exact .inl (by simp)
  | frameWr w | threshWr w =>
    simp only [exec, execFrameWr, execThreshWr, reject_eq] at h
    split at h <;> (cases h; exact .inl (by simp))
  | _ => cases h; exact .inl (by simp)

/-- PULSE_REM counts down, stopping at 0. -/
theorem pulseStep_toNat (r : BitVec 24) : (pulseStep r).toNat = r.toNat - 1 := by
  unfold pulseStep
  split
  · rename_i h; subst h; rfl
  · rename_i h
    bv_omega

end Sys2Proof.Machine
end

