-- ==== Sys2Proof/Laws/Operands.lean ====
section
/-! SUPPORT. What the checks and fields of the data words say, in the terms of the rules: one lemma per
check. -/
namespace Sys2Proof.Machine

/-- The glyph code of slot k, read from the data word itself (30 R72). -/
theorem glyphOf_frameField (w : Word) (k : Nat) (hk : k < 5) :
    glyphOf (frameField w) k = w.extractLsb' (6 * k) 5 := by
  apply BitVec.eq_of_getLsbD_eq
  intro i hi
  simp only [glyphOf, frameField, BitVec.getLsbD_extractLsb']
  simp only [hi, decide_true, Bool.true_and, Nat.zero_add]
  have : 6 * k + i < 30 := by omega
  simp [this]

/-- A FRAME_WR is accepted exactly when its reserved bits are 0 and every glyph code is valid
(41 R121). -/
theorem frameLegal_iff (c : Config) (w : Word) :
    frameLegal c w = true ↔
      w.extractLsb' 30 2 = 0#2 ∧ ∀ k, k < 5 → ∃ p, c.rom (w.extractLsb' (6 * k) 5) = some p := by
  simp only [frameLegal, frameReservedClear, frameValid, Bool.and_eq_true, beq_iff_eq,
    List.all_eq_true, List.mem_range, Config.validGlyph, Option.isSome_iff_exists]
  constructor
  · rintro ⟨a, b⟩; exact ⟨a, fun k hk => glyphOf_frameField w k hk ▸ b k hk⟩
  · rintro ⟨a, b⟩; exact ⟨a, fun k hk => (glyphOf_frameField w k hk).symm ▸ b k hk⟩

/-- A THRESH_WR is accepted exactly when its reserved bits are 0 and RST_TH < TRIG_TH (43 R171). -/
theorem threshLegal_iff (w : Word) :
    threshLegal w = true ↔
      w.extractLsb' 12 4 = 0#4 ∧ w.extractLsb' 28 4 = 0#4 ∧
        (w.extractLsb' 0 12).toNat < (w.extractLsb' 16 12).toNat := by
  simp only [threshLegal, threshReservedClear, rstTh, trigTh, and_assoc, Bool.and_eq_true, beq_iff_eq]
  exact and_congr_right fun _ => and_congr_right fun _ => decide_eq_true_iff

/-- A SAMPLE_WR is well formed exactly when bits 31 to 12 are 0 (43 R174). -/
theorem sampleLegal_iff (w : Word) : sampleLegal w = true ↔ w.extractLsb' 12 20 = 0#20 := by
  simp only [sampleLegal, beq_iff_eq]

/-- A CTRL_WR is accepted exactly when bits 31 to 1 are 0 (44 R200). -/
theorem ctrlLegal_iff (w : Word) : ctrlLegal w = true ↔ w.extractLsb' 1 31 = 0#31 := by
  simp only [ctrlLegal, beq_iff_eq]

/-- Above the trigger threshold, as numbers (43 R175). -/
theorem exceedsTrigger_iff (thresh : Word) (x : Sample) :
    exceedsTrigger thresh x = true ↔ (thresh.extractLsb' 16 12).toNat < x.toNat :=
  decide_eq_true_iff

/-- Below the reset threshold, as numbers (43 R175). -/
theorem belowReset_iff (thresh : Word) (x : Sample) :
    belowReset thresh x = true ↔ x.toNat < (thresh.extractLsb' 0 12).toNat :=
  decide_eq_true_iff

/-- PULSE_BUSY is clear exactly when PULSE_REM is 0 (10 R31). -/
theorem pulseBusy_false_iff (s : State) : s.pulseBusy = false ↔ s.pulseRem = 0 := by
  simp [State.pulseBusy]

theorem pulseBusy_true_iff (s : State) : s.pulseBusy = true ↔ s.pulseRem ≠ 0 := by
  simp [State.pulseBusy]

/-- The error masks as bits of ERR (10 R33). -/
theorem mask_errFrame : ErrBit.mask .errFrame = 0b00001#5 := by decide
theorem mask_errThresh : ErrBit.mask .errThresh = 0b00010#5 := by decide
theorem mask_errSample : ErrBit.mask .errSample = 0b00100#5 := by decide
theorem mask_smpDrop : ErrBit.mask .smpDrop = 0b01000#5 := by decide
theorem mask_errBus : ErrBit.mask .errBus = 0b10000#5 := by decide

end Sys2Proof.Machine
end

