-- ==== Sys2Proof/Laws/PerInstr.lean ====
section
/-! SUPPORT. Facts about each instruction as syntax, one lemma per constructor. -/
namespace Sys2Proof.Laws.EncodesItsRow

/-- The row of spec/opcode_table.json an instruction belongs to: its match and mask columns. -/
def row : Instr → Cmd × Cmd
  | .frameRd => (0x000, 0x1FF)
  | .frameWr _ => (0x100, 0x1FF)
  | .threshRd => (0x004, 0x1FF)
  | .threshWr _ => (0x104, 0x1FF)
  | .sampleRd => (0x008, 0x1FF)
  | .sampleWr _ => (0x108, 0x1FF)
  | .ctrlRd => (0x00C, 0x1FF)
  | .ctrlWr _ => (0x10C, 0x1FF)
  | .statusRd => (0x010, 0x1FF)
  | .statusWr _ => (0x110, 0x1FF)
  | .scanRd => (0x014, 0x1FF)
  | .snapRd => (0x018, 0x1FF)
  | .romRd _ => (0x080, 0x183)
  | .illegalMisaligned1 _ _ _ => (0x001, 0x003)
  | .illegalMisaligned2 _ _ _ => (0x002, 0x003)
  | .illegalMisaligned3 _ _ _ => (0x003, 0x003)
  | .illegalScanWr _ => (0x114, 0x1FF)
  | .illegalSnapWr _ => (0x118, 0x1FF)
  | .illegalRomWr _ _ => (0x180, 0x183)
  | .illegalUnmapped1C _ _ => (0x01C, 0x0FF)
  | .illegalUnmapped20To3C _ _ _ => (0x020, 0x0E3)
  | .illegalUnmapped40To7C _ _ _ => (0x040, 0x0C3)

/-- The command an instruction encodes to agrees with its row's match on the bits of its mask. -/
def Statement (i : Instr) : Prop := i.cmd &&& (row i).2 = (row i).1

theorem frameRd : Statement .frameRd := by simp [Statement, row, Instr.cmd]
theorem frameWr (w : Word) : Statement (.frameWr w) := by simp [Statement, row, Instr.cmd]
theorem threshRd : Statement .threshRd := by simp [Statement, row, Instr.cmd]
theorem threshWr (w : Word) : Statement (.threshWr w) := by simp [Statement, row, Instr.cmd]
theorem sampleRd : Statement .sampleRd := by simp [Statement, row, Instr.cmd]
theorem sampleWr (w : Word) : Statement (.sampleWr w) := by simp [Statement, row, Instr.cmd]
theorem ctrlRd : Statement .ctrlRd := by simp [Statement, row, Instr.cmd]
theorem ctrlWr (w : Word) : Statement (.ctrlWr w) := by simp [Statement, row, Instr.cmd]
theorem statusRd : Statement .statusRd := by simp [Statement, row, Instr.cmd]
theorem statusWr (w : Word) : Statement (.statusWr w) := by simp [Statement, row, Instr.cmd]
theorem scanRd : Statement .scanRd := by simp [Statement, row, Instr.cmd]
theorem snapRd : Statement .snapRd := by simp [Statement, row, Instr.cmd]
theorem romRd (g : Glyph) : Statement (.romRd g) := by
  revert g; simp only [Statement, row, Instr.cmd, mkCmd]; decide
theorem illegalMisaligned1 (we : Bool) (word : BitVec 6) (w : Word) :
    Statement (.illegalMisaligned1 we word w) := by
  revert we word; simp only [Statement, row, Instr.cmd, mkCmd]; decide
theorem illegalMisaligned2 (we : Bool) (word : BitVec 6) (w : Word) :
    Statement (.illegalMisaligned2 we word w) := by
  revert we word; simp only [Statement, row, Instr.cmd, mkCmd]; decide
theorem illegalMisaligned3 (we : Bool) (word : BitVec 6) (w : Word) :
    Statement (.illegalMisaligned3 we word w) := by
  revert we word; simp only [Statement, row, Instr.cmd, mkCmd]; decide
theorem illegalScanWr (w : Word) : Statement (.illegalScanWr w) := by simp [Statement, row, Instr.cmd]
theorem illegalSnapWr (w : Word) : Statement (.illegalSnapWr w) := by simp [Statement, row, Instr.cmd]
theorem illegalRomWr (g : Glyph) (w : Word) : Statement (.illegalRomWr g w) := by
  revert g; simp only [Statement, row, Instr.cmd, mkCmd]; decide
theorem illegalUnmapped1C (we : Bool) (w : Word) : Statement (.illegalUnmapped1C we w) := by
  revert we; simp only [Statement, row, Instr.cmd, mkCmd]; decide
theorem illegalUnmapped20To3C (we : Bool) (word : BitVec 3) (w : Word) :
    Statement (.illegalUnmapped20To3C we word w) := by
  revert we word; simp only [Statement, row, Instr.cmd, mkCmd]; decide
theorem illegalUnmapped40To7C (we : Bool) (word : BitVec 4) (w : Word) :
    Statement (.illegalUnmapped40To7C we word w) := by
  revert we word; simp only [Statement, row, Instr.cmd, mkCmd]; decide

end Sys2Proof.Laws.EncodesItsRow
end

