-- ==== Sys2Proof/Laws/Step.lean ====
section
/-! SUPPORT. What a step can do, said once: a reset cycle, a power cycle, a cycle before the first reset, or
a cycle of MPX proper; and how runs and the host's list go on from a step. -/
open Sys2Proof Sys2Proof.Machine

namespace Sys2Proof.Machine

/-- Under a legal configuration a step does what the host's next entry says. -/
theorem step_eq (s : State) (hc : s.cfg.legal = true) :
    step s = runHostOp (hostNext s) (hostTaken s) := by
  simp [step, runStep, hc]

/-- The state a cycle of MPX proper ends in, up to the host's list: TICK where no transaction is presented,
the command's next state where one is. -/
def cycleEndsIn (op : HostOp) (s t : State) : Prop :=
  (op.presents = none ∧ t = tick s) ∨
  (∃ x i, op.presents = some x ∧ decodeTxn x = .ok i ∧ exec i s = .next t)

/-- A cycle of MPX proper: it ends in a next state, which is that of the presented command or of TICK, with
the host's next entry taken off its list, or kept there if it is a WAITPULSE that goes on. -/
theorem step_plain (s : State) (h : plainCycle s) :
    ∃ t u, step s = .next t ∧ cycleEndsIn (hostNext s) (hostTaken s) u ∧
      ((t = u) ∨ (hostNext s = .waitPulse ∧ pollAgain u.resp = true ∧
        t = { u with host := .waitPulse :: u.host })) := by
  obtain ⟨hc, hr, hq⟩ := h
  rw [step_eq s hc]
  have hr' : (hostTaken s).resetDone = true := by simpa using hr
  cases hn : hostNext s with
  | powerCycle => simp [hn, HostOp.quiet] at hq
  | cycle rst txn =>
    have hrst : rst = false := by simpa [hn, HostOp.quiet] using hq
    subst hrst
    cases txn with
    | none =>
      exact ⟨_, _, runCycle_idle _ hr', .inl ⟨rfl, rfl⟩, .inl rfl⟩
    | some x =>
      obtain ⟨i, hi⟩ := decodeTxn_ok x
      obtain ⟨t, ht, -⟩ := exec_next i (hostTaken s)
      refine ⟨t, t, ?_, .inr ⟨x, i, rfl, hi, ht⟩, .inl rfl⟩
      simp only [runHostOp, runCycle_txn x i _ hr' hi, ht]
  | waitPulse =>
    obtain ⟨t, ht, -⟩ := exec_next .statusRd (hostTaken s)
    have hrun := runCycle_txn statusReadTxn .statusRd _ hr' decodeTxn_statusRead
    have hend : cycleEndsIn .waitPulse (hostTaken s) t :=
      .inr ⟨statusReadTxn, .statusRd, rfl, decodeTxn_statusRead, ht⟩
    by_cases hp : pollAgain t.resp = true
    · exact ⟨_, t, by simp only [runHostOp, pollCycle, hrun, ht, hp, if_true], hend, .inr ⟨rfl, hp, rfl⟩⟩
    · refine ⟨t, t, ?_, hend, .inl rfl⟩
      simp only [runHostOp, pollCycle, hrun, ht, hp]
      simp

/-- A step of MPX proper leaves the scan and the model's own fields to TICK. -/
theorem step_plain_scan (s t : State) (h : plainCycle s) (hs : step s = .next t) :
    t.phase = (tick s).phase ∧ t.cnt = (tick s).cnt ∧ t.idx = (tick s).idx ∧ t.snap = (tick s).snap ∧
      t.cfg = s.cfg ∧ t.resetDone = true ∧ t.draws = s.draws := by
  obtain ⟨t', u, hs', hend, hu⟩ := step_plain s h
  rw [hs] at hs'
  obtain rfl : t = t' := by simpa using hs'
  have hscan : ScanAsTick (hostTaken s) u := by
    rcases hend with ⟨-, rfl⟩ | ⟨x, i, -, -, he⟩
    · exact .tick _
    · obtain ⟨v, hv, hsc⟩ := exec_next i (hostTaken s)
      rw [he] at hv
      obtain rfl : u = v := by simpa using hv
      exact hsc
  have htick : (tick (hostTaken s)).phase = (tick s).phase ∧ (tick (hostTaken s)).cnt = (tick s).cnt ∧
      (tick (hostTaken s)).idx = (tick s).idx ∧ (tick (hostTaken s)).snap = (tick s).snap := by
    simp [tick_hostTaken]
  have hr : s.resetDone = true := h.2.1
  obtain ⟨h1, h2, h3, h4⟩ := htick
  rcases hu with rfl | ⟨-, -, rfl⟩
  · refine ⟨hscan.phase.trans h1, hscan.cnt.trans h2, hscan.idx.trans h3, hscan.snap.trans h4, ?_, ?_, ?_⟩
    · simpa using hscan.cfg
    · simpa [hr] using hscan.resetDone
    · simpa using hscan.draws
  · refine ⟨hscan.phase.trans h1, hscan.cnt.trans h2, hscan.idx.trans h3, hscan.snap.trans h4, ?_, ?_, ?_⟩
    · simpa using hscan.cfg
    · simpa [hr] using hscan.resetDone
    · simpa using hscan.draws

/-- The host's list after a step of MPX proper: one entry shorter, or the same where WAITPULSE goes on. -/
theorem step_plain_host (s t : State) (h : plainCycle s) (hs : step s = .next t) :
    t.host = s.host.tail ∨ (hostNext s = .waitPulse ∧ t.host = s.host) := by
  obtain ⟨t', u, hs', hend, hu⟩ := step_plain s h
  rw [hs] at hs'
  obtain rfl : t = t' := by simpa using hs'
  have hhost : u.host = s.host.tail := by
    rcases hend with ⟨-, rfl⟩ | ⟨x, i, -, -, he⟩
    · simp
    · obtain ⟨v, hv, hsc⟩ := exec_next i (hostTaken s)
      rw [he] at hv
      obtain rfl : u = v := by simpa using hv
      simpa using hsc.host
  rcases hu with rfl | ⟨hn, -, rfl⟩
  · exact .inl hhost
  · refine .inr ⟨hn, ?_⟩
    cases hh : s.host with
    | nil => simp [hostNext, hh] at hn
    | cons op rest =>
      simp only [hostNext, hh, List.headD_cons] at hn
      simp [hhost, hh, hn]

/-- A host that is quiet for the next cycles makes the next cycle one of MPX proper. -/
theorem plainCycle_of_quietFor (n : Nat) (s : State) (hc : s.cfg.legal = true)
    (hr : s.resetDone = true) (hq : quietFor (n + 1) s) : plainCycle s := by
  refine ⟨hc, hr, ?_⟩
  cases hh : s.host with
  | nil => simp [hostNext, hh, HostOp.quiet]
  | cons op rest =>
    simp only [hostNext, hh, List.headD_cons]
    exact hq op (by simp [hh])

/-- A property of the host's next entries goes on to the state after a step. -/
theorem host_take_step {P : HostOp → Prop} (n : Nat) (s t : State) (h : plainCycle s)
    (hs : step s = .next t) (hq : ∀ op ∈ s.host.take (n + 1), P op) : ∀ op ∈ t.host.take n, P op := by
  intro op hop
  rcases step_plain_host s t h hs with ht | ⟨-, ht⟩
  · refine hq op ?_
    rw [ht] at hop
    cases hh : s.host with
    | nil => simp [hh] at hop
    | cons a rest => simp only [hh, List.tail_cons] at hop; simp [hop]
  · rw [ht] at hop
    exact hq op (List.take_subset_take_left _ (by omega) hop)

theorem quietFor_step (n : Nat) (s t : State) (h : plainCycle s) (hs : step s = .next t)
    (hq : quietFor (n + 1) s) : quietFor n t :=
  host_take_step n s t h hs hq

theorem quietFor_le {m n : Nat} (hmn : m ≤ n) (s : State) (hq : quietFor n s) : quietFor m s :=
  fun op hop => hq op (List.take_subset_take_left _ hmn hop)

/-! ### Runs -/

@[simp] theorem runsTo_zero (s t : State) : RunsTo 0 s t ↔ s = t :=
  ⟨fun h => Host.Outcome.next.inj h, fun h => congrArg Host.Outcome.next h⟩

theorem runsTo_succ (n : Nat) (s t : State) :
    RunsTo (n + 1) s t ↔ ∃ u, step s = .next u ∧ RunsTo n u t := by
  have hs : Sys2Proof.core.step s = step s := rfl
  simp only [RunsTo, Host.Core.run, hs]
  cases step s with
  | next u => exact ⟨fun h => ⟨u, rfl, h⟩, fun ⟨v, hv, h⟩ => by cases hv; exact h⟩
  | fault r => exact ⟨fun h => (nomatch h), fun ⟨_, hv, _⟩ => (nomatch hv)⟩
  | refused r => exact ⟨fun h => (nomatch h), fun ⟨_, hv, _⟩ => (nomatch hv)⟩

/-- A step and then a run. -/
theorem RunsTo.head {n : Nat} {s u t : State} (hs : step s = .next u) (h : RunsTo n u t) :
    RunsTo (n + 1) s t := (runsTo_succ n s t).mpr ⟨u, hs, h⟩

/-- One run after another. -/
theorem RunsTo.trans {m n : Nat} {s u t : State} (h1 : RunsTo m s u) (h2 : RunsTo n u t) :
    RunsTo (m + n) s t := by
  induction m generalizing s with
  | zero => simp only [runsTo_zero] at h1; subst h1; simpa using h2
  | succ m ih =>
    obtain ⟨v, hv, h⟩ := (runsTo_succ m s u).mp h1
    have := RunsTo.head hv (ih h)
    rwa [show m + 1 + n = m + n + 1 by omega]

/-- A run has one end. -/
theorem RunsTo.unique {n : Nat} {s t u : State} (h1 : RunsTo n s t) (h2 : RunsTo n s u) : t = u :=
  Host.Outcome.next.inj (h1.symm.trans h2)

/-- An induction over a run under a quiet host, once for all: a property that every cycle of MPX proper
hands on holds at the run's end, and the run exists. -/
theorem run_quiet {P : Nat → State → Prop} (hstep : ∀ k s t, P k s → plainCycle s → step s = .next t → P (k + 1) t)
    (n k : Nat) (s : State) (hc : s.cfg.legal = true) (hr : s.resetDone = true) (hq : quietFor n s)
    (h0 : P k s) : ∃ t, RunsTo n s t ∧ P (k + n) t ∧ t.cfg = s.cfg ∧ t.resetDone = true := by
  induction n generalizing k s with
  | zero => exact ⟨s, by simp, by simpa using h0, rfl, hr⟩
  | succ n ih =>
    have hp := plainCycle_of_quietFor n s hc hr hq
    obtain ⟨u, -, hs, -⟩ := step_plain s hp
    obtain ⟨-, -, -, -, hcfg, hrd, -⟩ := step_plain_scan s u hp hs
    obtain ⟨t, ht, hPt, hct, hrt⟩ := ih (k + 1) u (by rw [hcfg]; exact hc) hrd
      (quietFor_step n s u hp hs hq) (hstep k s u h0 hp hs)
    exact ⟨t, RunsTo.head hs ht, by rwa [show k + (n + 1) = k + 1 + n by omega], hct.trans hcfg, hrt⟩

/-! ### The other steps -/

/-- A reset cycle, from any state. -/
theorem step_reset (s : State) (txn : Option Txn) (hc : s.cfg.legal = true)
    (hn : hostNext s = .cycle true txn) : step s = .next (resetEdge (hostTaken s)) := by
  rw [step_eq s hc, hn]; rfl

/-- Loss of the supply, from any state. -/
theorem step_powerCycle (s : State) (hc : s.cfg.legal = true) (hn : hostNext s = .powerCycle) :
    step s = .next (powerUp (hostTaken s)) := by
  rw [step_eq s hc, hn]; rfl

/-- Under an illegal configuration every step is refused. -/
theorem step_illegal (s : State) (hc : s.cfg.legal = false) :
    step s = .refused .illegalConfiguration := by
  simp [step, runStep, hc]

end Sys2Proof.Machine
end

