-- ==== Sys2Proof/Machine/Assembler.lean ====
section
/-! DEFINITION. The lines of test programs (30 R80) and its pseudo-operations (30 R81), expanded to what
the host does cycle by cycle. The machine sees the expansion only. -/
namespace Sys2Proof.Machine

/-- `<REG>` of 30 R80. -/
inductive RegName where
  | frame | thresh | sample | ctrl | status | scan | snap
  deriving DecidableEq, Repr

/-- The offset of a register (10 R35). -/
def RegName.offset : RegName → BitVec 8
  | .frame => 0x00
  | .thresh => 0x04
  | .sample => 0x08
  | .ctrl => 0x0C
  | .status => 0x10
  | .scan => 0x14
  | .snap => 0x18

/-- The offset of ROM entry g: 0x80 + 4g (10 R35). -/
def romOffset (g : Glyph) : BitVec 8 := 1#1 ++ g ++ 0#2

/-- A glyph name of 30 R81. -/
inductive GlyphName where
  | digit (d : Fin 10)
  | letterI
  | letterD
  | colon
  | allOn
  | allOff
  deriving DecidableEq, Repr

/-- The code of a glyph name (30 R81). -/
def GlyphName.code : GlyphName → Glyph
  | .digit d => BitVec.ofNat 5 d.val
  | .letterI => 10
  | .letterD => 11
  | .colon => 12
  | .allOn => 30
  | .allOff => 31

/-- A slot of SHOW: a glyph name, and whether a `.` follows it (30 R81). -/
structure ShowSlot where
  glyph : GlyphName
  dot : Bool
  deriving DecidableEq, Repr

/-- The six bits of a slot of SHOW. -/
def ShowSlot.bits (x : ShowSlot) : BitVec 6 := slot x.glyph.code x.dot

/-- A line of a test program (30 R80, R81). -/
inductive AsmLine where
  | rd (r : RegName)
  | rdRom (g : Glyph)
  | wr (r : RegName) (v : Word)
  | rdAt (off : BitVec 8)
  | wrAt (off : BitVec 8) (v : Word)
  | idle (n : Nat)
  | reset
  | showFrame (s0 s1 s2 s3 s4 : ShowSlot)
  | setTh (trig rst : Word)
  | clrErr
  | pwrOn
  | pwrOff
  | waitPulse
  deriving DecidableEq, Repr

/-- A cycle that presents a read (20 R51). -/
def busRead (off : BitVec 8) : HostOp := .cycle false (some ⟨false, off, 0⟩)

/-- A cycle that presents a write (20 R51). -/
def busWrite (off : BitVec 8) (v : Word) : HostOp := .cycle false (some ⟨true, off, v⟩)

/-- The FRAME word of SHOW (30 R81). -/
def showWord (s0 s1 s2 s3 s4 : ShowSlot) : Word :=
  frameWord (packFrame s0.bits s1.bits s2.bits s3.bits s4.bits)

/-- The cycles of a line (30 R80, R81). -/
def AsmLine.expand : AsmLine → List HostOp
  | .rd r => [busRead r.offset]
  | .rdRom g => [busRead (romOffset g)]
  | .wr r v => [busWrite r.offset v]
  | .rdAt off => [busRead off]
  | .wrAt off v => [busWrite off v]
  | .idle n => List.replicate n (.cycle false none)
  | .reset => [.cycle true none]
  | .showFrame s0 s1 s2 s3 s4 => [busWrite RegName.frame.offset (showWord s0 s1 s2 s3 s4)]
  | .setTh trig rst => [busWrite RegName.thresh.offset ((trig <<< 16) ||| rst)]
  | .clrErr => [busWrite RegName.status.offset 0x1F00]
  | .pwrOn => [busWrite RegName.ctrl.offset 1]
  | .pwrOff => [busWrite RegName.ctrl.offset 0]
  | .waitPulse => [.waitPulse]

/-- The host's list for a program. -/
def assemble (prog : List AsmLine) : List HostOp := prog.flatMap AsmLine.expand

end Sys2Proof.Machine
end

