-- ==== Sys2Proof/Tests/Slice0.lean ====
section
/-! SUPPORT. The model's own tests. Expected values come from spec/95_test_vectors.md (cited as 95) or from the
encodings of 30 R74 and R75; and one witness for every statement that has hypotheses. -/
open Sys2Proof Sys2Proof.Machine Host

namespace Sys2Proof.Tests

/-! ### Helpers -/

/-- The test configuration TC (95 section 0). -/
def tc : Config := { referenceConfig with dwellTicks := 2, pulseTicks := 3 }

/-- The state after reset under TC. -/
def s0 : State := State.resetWith tc []

/-- After reset, with the thresholds of `SETTH 1500, 1400`. -/
def armed : State := { s0 with thresh := 0x05DC0578 }

/-- LATCHED, no pulse active, with the same thresholds. -/
def held : State := { armed with latch := .latched, lastSample := 1600, pulseCnt := 1 }

/-- LATCHED, in the last cycle of a pulse. -/
def busy : State := { held with pulseRem := 1 }

/-- After reset, with the host's list. -/
def hosted (s : State) (ops : List HostOp) : State := { s with host := ops }

/-- DRIVE of position 0 begins: the state right after a snapshot edge. -/
def drive0 : State := { s0 with phase := .drive }

/-- One element of the next state, if there is one. -/
def after {α : Type} (r : Result) (f : State → α) : Option α :=
  match r with
  | .next t => some (f t)
  | .fault _ => none
  | .refused _ => none

/-- A write's row of a table: its response and the element it may write. -/
def respErr (t : State) : Option Response × BitVec 5 := (t.resp, t.err)

/-! ### WellFormed: a read that carries a data word is refused, a write that does is not -/

theorem test_wf_misaligned1 : (Instr.illegalMisaligned1 false 0 1).wellFormed = false := by decide
theorem test_wf_misaligned2 : (Instr.illegalMisaligned2 false 5 0x80000000).wellFormed = false := by decide
theorem test_wf_misaligned3 : (Instr.illegalMisaligned3 false 63 7).wellFormed = false := by decide
theorem test_wf_unmapped1C : (Instr.illegalUnmapped1C false 1).wellFormed = false := by decide
theorem test_wf_unmapped20 : (Instr.illegalUnmapped20To3C false 0 2).wellFormed = false := by decide
theorem test_wf_unmapped40 : (Instr.illegalUnmapped40To7C false 15 4).wellFormed = false := by decide
theorem test_wf_write_data : (Instr.illegalUnmapped40To7C true 15 4).wellFormed = true := by decide

/-! ### Decoding: words written out from 30 R74 and R75 (command bits `we` then `off`) -/

theorem test_decode_frameRd : decodeTableWord 16 0b0_0000_0000 = some .frameRd := by decide
theorem test_decode_frameWr : decodeTableWord 16 0b1_0000_0000 = some (.frameWr 0) := by decide
theorem test_decode_threshRd : decodeTableWord 16 0b0_0000_0100 = some .threshRd := by decide
theorem test_decode_threshWr :
    decodeTableWord 48 (0x05DC0578 * 512 + 0b1_0000_0100) = some (.threshWr 0x05DC0578) := by decide
theorem test_decode_sampleRd : decodeTableWord 16 0b0_0000_1000 = some .sampleRd := by decide
theorem test_decode_sampleWr :
    decodeTableWord 48 (0xFFF * 512 + 0b1_0000_1000) = some (.sampleWr 0xFFF) := by decide
theorem test_decode_ctrlRd : decodeTableWord 16 0b0_0000_1100 = some .ctrlRd := by decide
theorem test_decode_ctrlWr : decodeTableWord 48 (1 * 512 + 0b1_0000_1100) = some (.ctrlWr 1) := by decide
theorem test_decode_statusRd : decodeTableWord 16 0b0_0001_0000 = some .statusRd := by decide
theorem test_decode_statusWr :
    decodeTableWord 48 (0x1F00 * 512 + 0b1_0001_0000) = some (.statusWr 0x1F00) := by decide
theorem test_decode_scanRd : decodeTableWord 16 0b0_0001_0100 = some .scanRd := by decide
theorem test_decode_snapRd : decodeTableWord 16 0b0_0001_1000 = some .snapRd := by decide
theorem test_decode_romRd : decodeTableWord 16 0b0_1100_1100 = some (.romRd 19) := by decide
theorem test_decode_misaligned1 :
    decodeTableWord 16 0b1_1010_0101 = some (.illegalMisaligned1 true 0b101001 0) := by decide
theorem test_decode_misaligned2 :
    decodeTableWord 16 0b0_0001_1110 = some (.illegalMisaligned2 false 0b000111 0) := by decide
theorem test_decode_misaligned3 :
    decodeTableWord 16 0b1_0001_0111 = some (.illegalMisaligned3 true 0b000101 0) := by decide
theorem test_decode_scanWr : decodeTableWord 16 0b1_0001_0100 = some (.illegalScanWr 0) := by decide
theorem test_decode_snapWr : decodeTableWord 16 0b1_0001_1000 = some (.illegalSnapWr 0) := by decide
theorem test_decode_romWr : decodeTableWord 16 0b1_1000_0100 = some (.illegalRomWr 1 0) := by decide
theorem test_decode_unmapped1C :
    decodeTableWord 16 0b0_0001_1100 = some (.illegalUnmapped1C false 0) := by decide
theorem test_decode_unmapped20 :
    decodeTableWord 16 0b1_0011_0100 = some (.illegalUnmapped20To3C true 5 0) := by decide
theorem test_decode_unmapped40 :
    decodeTableWord 16 0b0_0111_1000 = some (.illegalUnmapped40To7C false 14 0) := by decide

/-- A read's data word is dropped (20 R51), and a bit above the 41 of a transaction is rejected. -/
theorem test_decode_read_data : decodeTableWord 48 (7 * 512 + 0b0_0001_1100) =
    some (.illegalUnmapped1C false 0) := by decide
theorem test_decode_padding : decodeTableWord 48 (2 ^ 41) = none := by decide

/-- The bytes of `WR THRESH, 0x05DC0578`: CMD 0x104, the data word shifted up by nine bits. -/
theorem test_encode_threshWr :
    encode (.threshWr 0x05DC0578) = [0x04, 0xF1, 0x0A, 0xB8, 0x0B, 0x00] := by decide

/-! ### Reads (95 section 2) -/

theorem test_frameRd_reset : after (exec .frameRd s0) (·.resp) = some (some (.okayData 0x1F7DF7DF)) := by
  decide
theorem test_frameRd_value : after (exec .frameRd { s0 with frame := 0x040DF0A1 }) (·.resp) =
    some (some (.okayData 0x040DF0A1)) := by decide
theorem test_snapRd_differs : after (exec .snapRd { s0 with frame := 0x040DF0A1 }) (·.resp) =
    some (some (.okayData 0x1F7DF7DF)) := by decide
theorem test_threshRd_reset : after (exec .threshRd s0) (·.resp) = some (some (.okayData 0x0FFF0000)) := by
  decide
theorem test_sampleRd : after (exec .sampleRd held) (·.resp) = some (some (.okayData 0x00000640)) := by
  decide
theorem test_ctrlRd : after (exec .ctrlRd { s0 with pwr := true }) (·.resp) = some (some (.okayData 1)) := by
  decide
theorem test_statusRd_busy : after (exec .statusRd busy) (·.resp) = some (some (.okayData 0x00010003)) := by
  decide
theorem test_statusRd_errors :
    after (exec .statusRd { s0 with err := 0b01000, pulseCnt := 1 }) (·.resp) =
      some (some (.okayData 0x00010800)) := by decide
theorem test_scanRd_cycle14 :
    after (exec .scanRd { s0 with idx := 4, phase := .drive, cnt := 1 }) (·.resp) =
      some (some (.okayData 0x0000010C)) := by decide
theorem test_romRd_digit : after (exec (.romRd 8) s0) (·.resp) = some (some (.okayData 0x0000007F)) := by
  decide
theorem test_romRd_reserved : after (exec (.romRd 13) s0) (·.resp) = some (some (.okayData 0)) := by decide

/-! ### Writes (95 section 2) -/

theorem test_frameWr_accepted :
    after (exec (.frameWr 0x040DF0A1) s0) (fun t => (t.frame, t.snap, t.resp)) =
      some (0x040DF0A1, 0x1F7DF7DF, some .okay) := by decide
theorem test_frameWr_reserved_glyph :
    after (exec (.frameWr 0x1F7DF7DD) s0) (fun t => (t.frame, respErr t)) =
      some (0x1F7DF7DF, some .slverr, 0b00001) := by decide
theorem test_threshWr_bottom :
    after (exec (.threshWr 0x00010000) s0) (fun t => (t.thresh, respErr t)) =
      some (0x00010000, some .okay, 0) := by decide
theorem test_threshWr_equal :
    after (exec (.threshWr 0x05DC05DC) armed) (fun t => (t.thresh, respErr t)) =
      some (0x05DC0578, some .slverr, 0b00010) := by decide
theorem test_sampleWr_triggers :
    after (exec (.sampleWr 1501) armed) (fun t => (t.latch, t.pulseRem, t.pulseCnt, t.lastSample)) =
      some (.latched, 3, 1, 1501) := by decide
theorem test_sampleWr_last_busy_cycle :
    after (exec (.sampleWr 0) busy) (fun t => (t.latch, t.pulseRem, t.lastSample, respErr t)) =
      some (.latched, 0, 1600, some .okay, 0b01000) := by decide
theorem test_ctrlWr_on : after (exec (.ctrlWr 1) s0) (fun t => (t.pwr, t.resp)) = some (true, some .okay) := by
  decide
theorem test_ctrlWr_reserved :
    after (exec (.ctrlWr 0x80000000) s0) (fun t => (t.pwr, respErr t)) =
      some (false, some .slverr, 0b10000) := by decide
theorem test_statusWr_all :
    after (exec (.statusWr 0xFFFFFFFF) { held with err := 0x1F, pulseCnt := 2 })
      (fun t => (statusWord t, t.resp)) = some (0x00020001, some .okay) := by decide
theorem test_statusWr_one :
    after (exec (.statusWr 0x00000100) { s0 with err := 0b10111 }) statusWord = some 0x00001600 := by decide

/-- PULSE_CNT wraps (95 S13), and a sample below RST_TH is judged in the cycle after a pulse (95 S12). -/
theorem test_pulseCnt_wraps :
    after (exec (.sampleWr 4095) { armed with pulseCnt := 0xFFFF }) (·.pulseCnt) = some 0 := by decide
theorem test_sampleWr_rearms :
    after (exec (.sampleWr 100) held) (fun t => (t.latch, t.pulseRem, t.resp)) =
      some (.idle, 0, some .okay) := by decide

/-! ### Access errors (95 section 2.7) -/

theorem test_misaligned1 : after (exec (.illegalMisaligned1 true 0 0xFFFFFFFF) s0) respErr =
    some (some .slverr, 0b10000) := by decide
theorem test_misaligned2 : after (exec (.illegalMisaligned2 false 0 0) s0) respErr =
    some (some .slverr, 0b10000) := by decide
theorem test_misaligned3 : after (exec (.illegalMisaligned3 false 0x20 0) s0) respErr =
    some (some .slverr, 0b10000) := by decide
theorem test_scanWr : after (exec (.illegalScanWr 0) s0) (fun t => (respErr t, scanWord t)) =
    some ((some .slverr, 0b10000), 0x00000008) := by decide
theorem test_snapWr : after (exec (.illegalSnapWr 0) s0) (fun t => (respErr t, t.snap)) =
    some ((some .slverr, 0b10000), 0x1F7DF7DF) := by decide
theorem test_romWr : after (exec (.illegalRomWr 31 0) s0) (fun t => (respErr t, romWord t.cfg 31)) =
    some ((some .slverr, 0b10000), 0) := by decide
theorem test_unmapped1C : after (exec (.illegalUnmapped1C false 0) s0) respErr =
    some (some .slverr, 0b10000) := by decide
theorem test_unmapped20 : after (exec (.illegalUnmapped20To3C true 0 0) s0) respErr =
    some (some .slverr, 0b10000) := by decide
theorem test_unmapped40 : after (exec (.illegalUnmapped40To7C true 0 0) s0) respErr =
    some (some .slverr, 0b10000) := by decide

/-! ### The scan and the outputs (95 section 2.3, P1) -/

theorem test_tick_blank_to_drive : scanWord (tick s0) = 0x00000008 := by decide
theorem test_tick_last_position :
    scanWord (tick { s0 with idx := 4, phase := .drive, cnt := 1 }) = 0x00000000 := by decide
theorem test_snapshot_pre_edge :
    after (exec (.frameWr 0x3F7DF7FE) { s0 with frame := 0x002481C6 }) (fun t => (t.frame, t.snap)) =
      some (0x3F7DF7FE, 0x002481C6) := by decide
theorem test_outputs_digit_with_point :
    logicalOutputs { drive0 with snap := 0x040DF0A1 } = ⟨0b00001, 0x086, false, false⟩ := by decide
theorem test_pins_active_low_segments :
    (pins { drive0 with snap := 0x040DF0A1 }).seg = 0x179 ∧ (pins s0).seg = 0x1FF := by decide
theorem test_pins_dsel_active_low :
    (pins { s0 with cfg := { tc with dselActiveHigh := false } }).dsel = 0b11111 := by decide
theorem test_outputs_dp_alone :
    (logicalOutputs { drive0 with snap := 0x1F7DF7FF }).seg = 0x080 := by decide

/-! ### Reset, parameters, ROM, host -/

/-- A reset cycle discards a presented `WR CTRL, 1` (95 section 2.7). -/
theorem test_reset_discards :
    after (step (hosted held [.cycle true (some ⟨true, 0x0C, 1⟩)])) (fun t => (t.pwr, t.latch, t.resp)) =
      some (false, .idle, none) := by decide
theorem test_reset_pins : logicalOutputs State.reset = ⟨0, 0, false, false⟩ := by decide
theorem test_reference_legal : State.reset.cfg.legal = true := by decide
/-- 00 R8: at 100 MHz, 4 ms is 400 000 cycles and 50 ms is 5 000 000. -/
theorem test_default_ticks :
    defaultDwellTicks 100000000 = 400000 ∧ defaultPulseTicks 100000000 = 5000000 := by decide
/-- 42 R152 at 1 MHz. -/
theorem test_default_sweep : referenceConfig.sweepTicks = 20005 := by decide
theorem test_illegal_pulse_ticks : Config.legal { tc with pulseTicks := 2 ^ 24 } = false := by decide
theorem test_illegal_rom : Config.legal { tc with segRom := List.replicate 32 none } = false := by decide
/-- 40 R103: the reference patterns all differ. -/
theorem test_reference_patterns_differ :
    (referenceRom.filterMap id).Pairwise (· ≠ ·) := by decide
theorem test_fetch : after (step (State.reset.withFetchWord 16 0b0_0000_0100)) (·.resp) =
    some (some (.okayData 0x0FFF0000)) := by decide
/-- 30 R81: `SHOW 1., 2, _, 3, 4` and `SETTH 1500, 1400`. -/
theorem test_assemble :
    assemble [.showFrame ⟨.digit 1, true⟩ ⟨.digit 2, false⟩ ⟨.allOff, false⟩ ⟨.digit 3, false⟩ ⟨.digit 4, false⟩,
        .setTh 1500 1400] = [busWrite 0x00 0x040DF0A1, busWrite 0x04 0x05DC0578] := by decide
/-- 95 section 2.8: 1.234, 3.270, 9.9995, 10.5, -0.3 in exact arithmetic; 48 R227: the ID frame of 7. -/
theorem test_convert : convertWord 1234 1000 = 0x040DF0A1 ∧ convertWord 3270 1000 = 0x001DF0A3 ∧
    convertWord 99995 10000 = 0x0925F269 ∧ convertWord 105 10 = 0x0925F269 ∧
    convertWord (-3) 10 = 0x0001F020 := by decide
theorem test_idFrame : idFrameWord 7 = 0x077CC2CA := by decide

/-! ### Witnesses: a state and operands that meet every hypothesis of a statement, each clause at a boundary -/

/-- The invariant, checked on a concrete state. -/
theorem inv_of (s : State) (h : s.cfg.legal = true ∧ s.idx.toNat ≤ 4 ∧
    (s.phase = .blank → s.cnt.toNat < s.cfg.blankTicks) ∧
    (s.phase = .drive → s.cnt.toNat < s.cfg.dwellTicks) ∧ frameValid s.cfg s.frame = true ∧
    frameValid s.cfg s.snap = true ∧ (rstTh s.thresh).toNat < (trigTh s.thresh).toNat ∧
    threshReservedClear s.thresh = true ∧ s.pulseRem.toNat ≤ s.cfg.pulseTicks ∧
    (s.pulseRem ≠ 0 → s.latch = .latched)) : s.Inv :=
  ⟨h.1, fun _ => ⟨h.2.1, h.2.2.1, h.2.2.2.1, h.2.2.2.2.1, h.2.2.2.2.2.1, h.2.2.2.2.2.2.1,
    h.2.2.2.2.2.2.2.1, h.2.2.2.2.2.2.2.2.1, h.2.2.2.2.2.2.2.2.2⟩⟩

/-- A list of quiet entries is quiet for any number of cycles. -/
theorem quietFor_of (s : State) (n : Nat) (h : s.host.all HostOp.quiet = true) : quietFor n s :=
  fun op hop => List.all_eq_true.mp h op (List.mem_of_mem_take hop)

theorem witness_AccessErrors :
    ∀ t ∈ [Txn.mk false 0x01 0, ⟨false, 0x1C, 0⟩, ⟨true, 0x7C, 0⟩, ⟨true, 0x14, 0⟩, ⟨true, 0x18, 0⟩,
      ⟨true, 0x80, 0⟩, ⟨true, 0xFC, 0⟩], isAccessError t ∧ s0.resetDone = true := by
  unfold isAccessError; decide
theorem witness_EncodeThenDecode : (Instr.illegalMisaligned1 true 63 0xFFFFFFFF).wellFormed = true := by decide
theorem witness_StepRuns :
    let s := hosted s0 [busWrite 0x0C 1]
    s.cfg.legal = true ∧ s.resetDone = true ∧ hostNext s = .cycle false (some ⟨true, 0x0C, 1⟩) ∧
      decodeTxn ⟨true, 0x0C, 1⟩ = .ok (.ctrlWr 1) := by
  refine ⟨by decide, rfl, rfl, rfl⟩
theorem witness_FetchWord :
    s0.cfg.legal = true ∧ s0.resetDone = true ∧ decodeTableWord 16 0x010 = some .statusRd := by decide

/-- The four clauses: BLANK ends, BLANK goes on, DRIVE ends, DRIVE goes on. -/
theorem witness_IdleCycle :
    (s0.cfg.legal = true ∧ s0.resetDone = true ∧ hostNext s0 = .cycle false none ∧
      s0.phase = .blank ∧ s0.cnt.toNat = s0.cfg.blankTicks - 1) ∧
    (let s := { s0 with cfg := { tc with blankTicks := 2 } }
     s.cfg.legal = true ∧ s.phase = .blank ∧ s.cnt.toNat ≠ s.cfg.blankTicks - 1) ∧
    (let s := { s0 with phase := .drive, cnt := 1, idx := 4 }
     s.phase = .drive ∧ s.cnt.toNat = s.cfg.dwellTicks - 1) ∧
    (drive0.phase = .drive ∧ drive0.cnt.toNat ≠ drive0.cfg.dwellTicks - 1) := by decide

theorem s0_inv : s0.Inv := inv_of s0 (by decide)
theorem drive0_inv : drive0.Inv := inv_of drive0 (by decide)

theorem witness_ThreshRead : s0.Inv ∧ s0.resetDone = true := ⟨s0_inv, rfl⟩
theorem witness_RomRead : s0.cfg.rom 13 = none ∧ s0.cfg.rom 31 = some 0 := by decide
theorem witness_FrameWriteAccepted : (0x3FFFFFFF : Word).extractLsb' 30 2 = 0#2 ∧
    ∀ k, k < 5 → ∃ p, s0.cfg.rom ((0x3FFFFFFF : Word).extractLsb' (6 * k) 5) = some p :=
  (frameLegal_iff s0.cfg 0x3FFFFFFF).mp (by decide)
theorem witness_FrameWriteChanges : ∃ t, exec (.frameWr 0x040DF0A1) s0 = .next t ∧ t.frame ≠ s0.frame :=
  ⟨_, rfl, by decide⟩
theorem witness_FrameWriteRejected : (0x5F7DF7DF : Word).extractLsb' 30 2 ≠ 0#2 ∧
    s0.cfg.rom ((0x1F7DF7DD : Word).extractLsb' (6 * 0) 5) = none ∧
    s0.cfg.rom ((0x1D7DF7DF : Word).extractLsb' (6 * 4) 5) = none := by decide
theorem witness_ThreshWriteAccepted :
    threshLegal 0x00010000 = true ∧ threshLegal 0x0FFF0FFE = true := by decide
theorem witness_ThreshWriteRejected : (0x05DC1578 : Word).extractLsb' 12 4 ≠ 0#4 ∧
    (0x15DC0578 : Word).extractLsb' 28 4 ≠ 0#4 ∧
    ((0x05DC05DC : Word).extractLsb' 16 12).toNat ≤ ((0x05DC05DC : Word).extractLsb' 0 12).toNat := by decide
theorem witness_MalformedSample : (0x1000 : Word).extractLsb' 12 20 ≠ 0#20 := by decide
theorem witness_SampleDropped : (0xFFF : Word).extractLsb' 12 20 = 0#20 ∧ busy.pulseRem ≠ 0 := by decide
/-- The four rows of 43 R177, each on its side of the threshold. -/
theorem witness_AcceptedSample :
    armed.cfg.legal = true ∧ armed.pulseRem = 0 ∧ held.pulseRem = 0 ∧ armed.latch = .idle ∧
    held.latch = .latched ∧ (1501 : Word).extractLsb' 12 20 = 0#20 ∧
    ((1501 : Word).extractLsb' 0 12).toNat > (armed.thresh.extractLsb' 16 12).toNat ∧
    ((1500 : Word).extractLsb' 0 12).toNat ≤ (armed.thresh.extractLsb' 16 12).toNat ∧
    ((1399 : Word).extractLsb' 0 12).toNat < (held.thresh.extractLsb' 0 12).toNat ∧
    ((1400 : Word).extractLsb' 0 12).toNat ≥ (held.thresh.extractLsb' 0 12).toNat := by decide
theorem witness_CtrlWrite :
    (1 : Word).extractLsb' 1 31 = 0#31 ∧ (2 : Word).extractLsb' 1 31 ≠ 0#31 := by decide
theorem witness_IllegalCommands : ∃ t : State,
    t = { tick s0 with err := s0.err ||| 0b10000#5, resp := some .slverr } := ⟨_, rfl⟩
theorem witness_WriteThenRead : ∃ t1 t2 t3 t4 : State,
    exec (.frameWr 0x28A28A28) s0 = .next t1 ∧ t1.resp = some .okay ∧
    exec (.threshWr 0x0FFF0FFE) s0 = .next t2 ∧ t2.resp = some .okay ∧
    exec (.ctrlWr 1) s0 = .next t3 ∧ t3.resp = some .okay ∧
    exec (.sampleWr 4095) s0 = .next t4 ∧ t4.resp = some .okay ∧ s0.pulseRem = 0 :=
  ⟨_, _, _, _, rfl, rfl, rfl, rfl, rfl, rfl, rfl, rfl, rfl⟩
theorem witness_Rejected : ∃ t, exec (.threshWr 0) s0 = .next t ∧ t.resp = some .slverr := ⟨_, rfl, rfl⟩
theorem witness_ErrorBits : ∃ t, 4 < 5 ∧ exec (.statusWr 0x1000) { s0 with err := 0x1F } = .next t :=
  ⟨_, by decide, rfl⟩

theorem witness_FrameChanges : ∃ t, plainCycle (hosted s0 [busWrite 0 0x040DF0A1]) ∧
    step (hosted s0 [busWrite 0 0x040DF0A1]) = .next t ∧ t.frame ≠ (hosted s0 [busWrite 0 0x040DF0A1]).frame :=
  ⟨_, ⟨by decide, rfl, rfl⟩, rfl, by decide⟩
theorem witness_Snapshot : plainCycle s0 ∧
    (s0.phase = .blank ∧ s0.cnt.toNat = s0.cfg.blankTicks - 1 ∧ s0.idx = 0) ∧ plainCycle drive0 ∧
    ¬ (drive0.phase = .blank ∧ drive0.cnt.toNat = drive0.cfg.blankTicks - 1 ∧ drive0.idx = 0) :=
  ⟨⟨by decide, rfl, rfl⟩, by decide, ⟨by decide, rfl, rfl⟩, by decide⟩

/-- The cycle of a triggering sample. -/
def firing : State := hosted armed [busWrite 0x08 1501]
theorem firing_plain : plainCycle firing := ⟨by decide, rfl, rfl⟩
theorem firing_judges : judgesSample firing 1501 :=
  ⟨⟨true, 0x08, 1501⟩, 1501, rfl, rfl, by decide, rfl, by decide⟩

theorem witness_LatchMoves :
    (∃ t, plainCycle firing ∧ step firing = .next t ∧ judgesSample firing 1501 ∧ firing.latch = .idle) ∧
    (judgesSample (hosted held [busWrite 0x08 1399]) 1399 ∧ held.latch = .latched) ∧
    ¬ ∃ x, judgesSample s0 x :=
  ⟨⟨_, firing_plain, rfl, firing_judges, rfl⟩,
    ⟨⟨⟨true, 0x08, 1399⟩, 1399, rfl, rfl, by decide, rfl, by decide⟩, rfl⟩,
    fun ⟨_, t, _, h, _⟩ => by cases (h : none = some t)⟩
theorem witness_PulseCount : ∃ t u, plainCycle firing ∧ step firing = .next t ∧
    (firing.latch = .idle ∧ t.latch = .latched) ∧ plainCycle busy ∧ step busy = .next u ∧
    ¬ (busy.latch = .idle ∧ u.latch = .latched) :=
  ⟨_, _, firing_plain, rfl, by decide, ⟨by decide, rfl, rfl⟩, rfl, by decide⟩
theorem witness_ThreshAndPwr : ∃ t u,
    plainCycle (hosted s0 [busWrite 0x04 0x05DC0578]) ∧ step (hosted s0 [busWrite 0x04 0x05DC0578]) = .next t ∧
    t.thresh ≠ s0.thresh ∧ plainCycle (hosted s0 [busWrite 0x0C 1]) ∧
    step (hosted s0 [busWrite 0x0C 1]) = .next u ∧ u.pwr ≠ s0.pwr :=
  ⟨_, _, ⟨by decide, rfl, rfl⟩, rfl, by decide, ⟨by decide, rfl, rfl⟩, rfl, by decide⟩
theorem witness_StepKeeps : ∃ t, step s0 = .next t := ⟨_, rfl⟩

/-- From a state that no reset edge has reached, with a transaction presented too. -/
theorem witness_ResetEdge :
    let s := hosted { s0 with resetDone := false } [.cycle true (some ⟨true, 0x0C, 1⟩)]
    s.cfg.legal = true ∧ hostNext s = .cycle true (some ⟨true, 0x0C, 1⟩) :=
  ⟨by decide, rfl⟩
/-- The bounds themselves are legal; one beyond a bound is not. -/
theorem witness_OnlyIllegal :
    Config.legal { tc with dwellTicks := 2 ^ 24, blankTicks := 2 ^ 24, pulseTicks := 2 ^ 24 - 1 } = true ∧
    Config.legal { tc with dwellTicks := 0 } = false ∧
    Config.legal { tc with blankTicks := 2 ^ 24 + 1 } = false ∧ Config.legal { tc with fClk := 0 } = false ∧
    Config.legal { tc with base := 128 } = false := by decide
theorem witness_OnlyAReset :
    hostNext (hosted s0 [.powerCycle]) = .powerCycle ∧ s0.cfg.legal = true ∧
    (let s := hosted { s0 with resetDone := false } [busRead 0x10, .waitPulse, .cycle true none]
     s.resetDone = false ∧ ∀ op ∈ s.host.take 2, ∀ txn, op ≠ .cycle true txn) := by
  refine ⟨rfl, by decide, rfl, ?_⟩
  simp [hosted, busRead]
theorem witness_ResetStates : referenceConfig.legal = true := by decide
theorem witness_EveryStep : ∃ t, (hosted busy [busWrite 0x08 0]).Inv ∧
    step (hosted busy [busWrite 0x08 0]) = .next t :=
  ⟨_, inv_of _ (by decide), rfl⟩
theorem witness_Blank : s0.resetDone = true ∧ s0.phase = .blank := by decide
theorem witness_Drive :
    let s := { drive0 with idx := 4, snap := 0x28A28A28 }
    s.Inv ∧ s.resetDone = true ∧ s.phase = .drive :=
  ⟨inv_of _ (by decide), rfl, rfl⟩
theorem witness_PinsDepend :
    let t := { drive0 with frame := 0x040DF0A1, thresh := 0x05DC0578, err := 0x1F }
    drive0.Inv ∧ t.Inv ∧ drive0.resetDone = true ∧ t.resetDone = true ∧ drive0.cfg = t.cfg ∧
      drive0.phase = t.phase ∧ drive0.idx = t.idx ∧ drive0.snap = t.snap ∧
      drive0.pulseRem = t.pulseRem ∧ drive0.pwr = t.pwr :=
  ⟨drive0_inv, inv_of _ (by decide), rfl, rfl, rfl, rfl, rfl, rfl, rfl, rfl⟩

/-- A host that keeps writing samples. -/
def busyHost : List HostOp := [busWrite 0x08 1600, .waitPulse, busWrite 0x00 0x040DF0A1]

/-- The last cycle of a sweep; the two phases at their boundaries are cycles 0 and 1 of position 0. -/
theorem witness_Scan :
    let s := hosted armed busyHost
    s.cfg.legal = true ∧ s.resetDone = true ∧ s.phase = .blank ∧ s.cnt = 0 ∧ s.idx = 0 ∧ quietFor 14 s ∧
      0 % (s.cfg.blankTicks + s.cfg.dwellTicks) < s.cfg.blankTicks ∧
      s.cfg.blankTicks ≤ 1 % (s.cfg.blankTicks + s.cfg.dwellTicks) ∧
      s.cfg.blankTicks ≤ 14 % (s.cfg.blankTicks + s.cfg.dwellTicks) :=
  ⟨by decide, rfl, rfl, rfl, rfl, quietFor_of _ _ (by decide), by decide, by decide, by decide⟩
theorem witness_EachDigit :
    let s := hosted armed busyHost
    s.cfg.legal = true ∧ s.resetDone = true ∧ s.phase = .blank ∧ s.cnt = 0 ∧ s.idx = 0 ∧
      14 < s.cfg.sweepTicks ∧ 4 < 5 ∧ quietFor 14 s :=
  ⟨by decide, rfl, rfl, rfl, rfl, by decide, by decide, quietFor_of _ _ (by decide)⟩
theorem witness_OneFrame :
    let s := hosted drive0 busyHost
    s.Inv ∧ s.resetDone = true ∧ s.phase = .drive ∧ s.cnt = 0 ∧ s.idx = 0 ∧ 14 < s.cfg.sweepTicks ∧
      quietFor 14 s ∧ quietFor s.cfg.sweepTicks s :=
  ⟨inv_of _ (by decide), rfl, rfl, rfl, rfl, by decide, quietFor_of _ _ (by decide),
    quietFor_of _ _ (by decide)⟩
theorem witness_WrittenFrame :
    let s := hosted s0 [busWrite 0x00 0x040DF0A1, busRead 0x18]
    s.Inv ∧ plainCycle s ∧ presentsFrameWr s 0x040DF0A1 ∧ frameLegal s.cfg 0x040DF0A1 = true ∧
      quietFor (1 + s.cfg.sweepTicks) s ∧ ∀ op ∈ s.host.tail.take s.cfg.sweepTicks, presentsNoFrameWr op := by
  refine ⟨inv_of _ (by decide), ⟨by decide, rfl, rfl⟩, ⟨_, rfl, rfl⟩, by decide,
    quietFor_of _ _ (by decide), ?_⟩
  intro op hop t w ht
  have hop' : op = busRead 0x18 := by
    simpa [hosted] using List.mem_of_mem_take hop
  subst hop'
  have : t = ⟨false, 0x18, 0⟩ := (Option.some.inj ht).symm
  subst this
  simp [decodeTxn, opcodeTable, legalRows, Row.matches, Txn.cmd]
theorem witness_FirstSweep : tc.legal = true ∧ tc.blankTicks = 1 ∧ 15 ≤ tc.sweepTicks ∧
    quietFor 15 (State.resetWith tc busyHost) :=
  ⟨by decide, rfl, by decide, quietFor_of _ _ (by decide)⟩
theorem witness_PulseLasts : plainCycle firing ∧ judgesSample firing 1501 ∧ firing.latch = .idle ∧
    (1501 : Sample).toNat > (firing.thresh.extractLsb' 16 12).toNat ∧ 2 < firing.cfg.pulseTicks ∧
    quietFor (1 + 2) firing ∧ quietFor (1 + firing.cfg.pulseTicks) firing :=
  ⟨firing_plain, firing_judges, rfl, by decide, by decide, quietFor_of _ _ (by decide),
    quietFor_of _ _ (by decide)⟩
/-- A re-arming sample and then a trigger. -/
theorem witness_PulsesSeparated : ∃ t,
    let s := hosted held [busWrite 0x08 1399, busWrite 0x08 1501]
    s.cfg.legal = true ∧ s.resetDone = true ∧ s.latch = .latched ∧ quietFor 2 s ∧ RunsTo 2 s t ∧
      t.pulseCnt ≠ s.pulseCnt :=
  ⟨_, by decide, rfl, rfl, quietFor_of _ _ (by decide), rfl, by decide⟩
theorem witness_SamplesInThePulse : plainCycle firing ∧ judgesSample firing 1501 ∧ firing.latch = .idle ∧
    (1501 : Sample).toNat > (firing.thresh.extractLsb' 16 12).toNat ∧ 2 < firing.cfg.pulseTicks ∧
    quietFor (1 + 2) firing ∧ (0 : Word).extractLsb' 12 20 = 0#20 :=
  ⟨firing_plain, firing_judges, rfl, by decide, by decide, quietFor_of _ _ (by decide), by decide⟩
theorem witness_ResetThreshold : tc.legal = true ∧
    quietFor 1 (State.resetWith tc [busWrite 0x08 4095]) ∧
    ∀ op ∈ [busWrite 0x08 4095].take 1, presentsNoThreshWr op := by
  refine ⟨by decide, quietFor_of _ _ (by decide), ?_⟩
  intro op hop t w ht
  have hop' : op = busWrite 0x08 4095 := by simpa using hop
  subst hop'
  have : t = ⟨true, 0x08, 4095⟩ := (Option.some.inj ht).symm
  subst this
  simp [decodeTxn, opcodeTable, legalRows, Row.matches, Txn.cmd]
theorem witness_WaitPulse :
    let s := hosted busy [.waitPulse, busRead 0x08]
    s.cfg.legal = true ∧ s.resetDone = true ∧ s.host = .waitPulse :: [busRead 0x08] ∧ 1 ≤ s.pulseRem.toNat :=
  ⟨by decide, rfl, rfl, by decide⟩
/-- 1.5 V at 4.096 V full scale is code 1500, and 4095 is the largest code. -/
theorem witness_ThresholdCodes : 0 < 10 ∧ 0 < 4096 ∧ 0 < 1000 ∧ 4095 ≤ 4095 ∧ 4094 < 4095 ∧
    triggerCode 15 10 4096 1000 = 1500 := by decide
theorem witness_HostReference : s0.cfg.legal = true ∧ s0.cfg.segRom = referenceRom ∧ 9 < 10 := by decide

end Sys2Proof.Tests
end

section
/-! Refusals (00 R8): which configurations `Config.legal` accepts, in the terms of 00 R7 and 40 R101, and
that under such a configuration whatever the host does next ends in a next state. -/
open Sys2Proof Sys2Proof.Machine

namespace Sys2Proof

theorem ticksLegal_iff (v bound : Nat) : ticksLegal v bound = true ↔ 1 ≤ v ∧ v ≤ bound := by
  simp only [ticksLegal, Bool.and_eq_true, decide_eq_true_eq]

theorem Config.validGlyph_iff (c : Config) (g : Glyph) : c.validGlyph g = true ↔ ∃ p, c.rom g = some p :=
  Option.isSome_iff_exists

theorem Config.romLegal_iff (c : Config) :
    c.romLegal = true ↔ c.segRom.length = 32 ∧
      (∀ d, d < 10 → ∃ p, c.rom (BitVec.ofNat 5 d) = some p) ∧ c.rom 30 = some 0x1FF ∧ c.rom 31 = some 0 := by
  simp only [Config.romLegal, Bool.and_eq_true, beq_iff_eq, List.all_eq_true, List.mem_range,
    Config.validGlyph_iff, and_assoc]

/-- The constraints of 00 R7, with those of 40 R101 on the ROM. -/
theorem Config.legal_iff (c : Config) :
    c.legal = true ↔ 0 < c.fClk ∧ 1 ≤ c.dwellTicks ∧ c.dwellTicks ≤ 2 ^ 24 ∧
      1 ≤ c.blankTicks ∧ c.blankTicks ≤ 2 ^ 24 ∧ 1 ≤ c.pulseTicks ∧ c.pulseTicks ≤ 2 ^ 24 - 1 ∧
      c.base % 256 = 0 ∧ c.segRom.length = 32 ∧
      (∀ d, d < 10 → ∃ p, c.rom (BitVec.ofNat 5 d) = some p) ∧ c.rom 30 = some 0x1FF ∧ c.rom 31 = some 0 := by
  simp only [Config.legal, Bool.and_eq_true, decide_eq_true_eq, ticksLegal_iff, Config.romLegal_iff, and_assoc]

end Sys2Proof

namespace Sys2Proof.Machine

/-- No cycle stops the machine: the decoder rejects nothing, and every command has a next state. -/
theorem runCycle_next (rst : Bool) (txn : Option Txn) (s : State) : ∃ t, runCycle rst txn s = .next t := by
  cases rst with
  | true => exact ⟨_, runCycle_reset txn s⟩
  | false =>
    cases hr : s.resetDone with
    | false => exact ⟨_, runCycle_unspecified txn s hr⟩
    | true =>
      cases txn with
      | none => exact ⟨_, runCycle_idle s hr⟩
      | some x =>
        obtain ⟨i, hi⟩ := decodeTxn_ok x
        obtain ⟨t, ht, -⟩ := exec_next i s
        exact ⟨t, (runCycle_txn x i s hr hi).trans ht⟩

/-- A cycle of WAITPULSE ends in a next state, whether the loop goes on or not. -/
theorem pollCycle_next (s : State) : ∃ t, pollCycle s = .next t := by
  obtain ⟨t, ht⟩ := runCycle_next false (some statusReadTxn) s
  simp only [pollCycle, ht]
  split
  · exact ⟨_, rfl⟩
  · exact ⟨_, rfl⟩

theorem runHostOp_next (op : HostOp) (s : State) : ∃ t, runHostOp op s = .next t := by
  cases op with
  | cycle rst txn => exact runCycle_next rst txn s
  | waitPulse => exact pollCycle_next s
  | powerCycle => exact ⟨powerUp s, rfl⟩

/-- Under a legal configuration every step ends in a next state, before the first reset edge too. -/
theorem step_next (s : State) (hc : s.cfg.legal = true) : ∃ t, step s = .next t := by
  rw [step_eq s hc]
  exact runHostOp_next _ _

/-- Settles O35: the written-out constraints are `Config.legal`, the one thing a step checks. -/
theorem onlyIllegalConfigurationsAreRefused : Obligations.OnlyIllegalConfigurationsAreRefused := by
  intro s
  exact ⟨fun h => step_next s (s.cfg.legal_iff.2 h),
    fun h => step_illegal s (Bool.eq_false_iff.2 (mt s.cfg.legal_iff.1 h))⟩

end Sys2Proof.Machine
end

section
/-! The state (10): no step changes the configuration (R34, R39), and the invariants of R37 hold at reset
and are kept by every step. -/
open Sys2Proof Sys2Proof.Machine

namespace Sys2Proof.Machine

/-! ### What a step can do -/

/-- Before the first reset edge, what a quiet entry of the host's list ends in keeps the configuration and
is before the reset still (70 R261). -/
theorem runHostOp_unspecified (op : HostOp) (s t : State) (hq : op.quiet = true)
    (hr : s.resetDone = false) (h : runHostOp op s = .next t) : t.cfg = s.cfg ∧ t.resetDone = false := by
  cases op with
  | cycle rst txn =>
    obtain rfl : rst = false := by simpa [HostOp.quiet] using hq
    rw [runHostOp, runCycle_unspecified txn s hr] at h
    cases h; exact ⟨rfl, rfl⟩
  | waitPulse =>
    simp only [runHostOp, pollCycle, runCycle_unspecified _ s hr] at h
    split at h <;> (cases h; exact ⟨rfl, rfl⟩)
  | powerCycle => simp [HostOp.quiet] at hq

/-- A step is refused unless the configuration is legal. -/
theorem legal_of_step_next {s t : State} (h : step s = .next t) : s.cfg.legal = true := by
  cases hc : s.cfg.legal with
  | true => rfl
  | false => rw [step_illegal s hc] at h; cases h

/-- A step is a cycle of MPX proper, a reset edge, or one after which no reset edge has occurred since
power-up. -/
theorem step_cases {s t : State} (h : step s = .next t) :
    plainCycle s ∨ t = resetEdge (hostTaken s) ∨ (t.cfg = s.cfg ∧ t.resetDone = false) := by
  have hc := legal_of_step_next h
  by_cases hq : (hostNext s).quiet = true
  · cases hr : s.resetDone with
    | true => exact .inl ⟨hc, hr, hq⟩
    | false =>
      rw [step_eq s hc] at h
      exact .inr (.inr (runHostOp_unspecified _ (hostTaken s) t hq hr h))
  · cases hn : hostNext s with
    | cycle rst txn =>
      obtain rfl : rst = true := by simpa [hn, HostOp.quiet] using hq
      rw [step_reset s txn hc hn] at h
      cases h; exact .inr (.inl rfl)
    | waitPulse => simp [hn, HostOp.quiet] at hq
    | powerCycle =>
      rw [step_powerCycle s hc hn] at h
      cases h; exact .inr (.inr ⟨rfl, rfl⟩)

/-- Every step hands the configuration on (log entry 3). -/
theorem step_cfg {s t : State} (h : step s = .next t) : t.cfg = s.cfg := by
  obtain hp | rfl | ⟨hcfg, -⟩ := step_cases h
  · obtain ⟨-, -, -, -, hcfg, -, -⟩ := step_plain_scan s t hp h
    exact hcfg
  · rfl
  · exact hcfg

/-- Settles O33: of a cycle of MPX proper, a reset edge and an unspecified state, none touches `cfg`. -/
theorem stepKeepsTheConfiguration : Obligations.StepKeepsTheConfiguration :=
  fun _ _ => step_cfg

/-! ### The length of a phase (42 R141) -/

/-- Cycles of a phase: BLANK_TICKS or DWELL_TICKS. -/
def phaseTicks (c : Config) : Phase → Nat
  | .blank => c.blankTicks
  | .drive => c.dwellTicks

/-- A phase ends in the cycle whose CNT is its length less one. -/
theorem phaseEnds_iff (s : State) : phaseEnds s = true ↔ s.cnt.toNat + 1 = phaseTicks s.cfg s.phase := by
  cases hp : s.phase <;> simp [phaseEnds, phaseTicks, hp]

/-- The bounds of 00 R7 on either phase: it has a cycle, and CNT can count it. -/
theorem phaseTicks_bounds {c : Config} (hc : c.legal = true) (p : Phase) :
    0 < phaseTicks c p ∧ phaseTicks c p ≤ 2 ^ 24 := by
  obtain ⟨-, hd, hd', hb, hb', -⟩ := c.legal_iff.1 hc
  cases p with
  | blank => exact ⟨hb, hb'⟩
  | drive => exact ⟨hd, hd'⟩

/-- TICK keeps CNT below the length of its phase: a phase that goes on has a cycle left, and one that
begins has a cycle (10 R37 (b)). -/
theorem tick_cnt_lt {s : State} (hc : s.cfg.legal = true)
    (h : s.cnt.toNat < phaseTicks s.cfg s.phase) :
    (tick s).cnt.toNat < phaseTicks s.cfg (tick s).phase := by
  cases he : phaseEnds s with
  | true =>
    have hn : (tick s).cnt = 0 := by
      cases hp : s.phase with
      | blank => obtain ⟨-, hn, -⟩ := tick_blank_ends s hp he; exact hn
      | drive => obtain ⟨-, hn, -⟩ := tick_drive_ends s hp he; exact hn
    rw [hn]
    exact (phaseTicks_bounds hc _).1
  | false =>
    obtain ⟨hp, hn, -⟩ := tick_goes_on s he
    have hne : s.cnt.toNat + 1 ≠ phaseTicks s.cfg s.phase := mt (phaseEnds_iff s).2 (by simp [he])
    have hle := (phaseTicks_bounds hc s.phase).2
    have hadd : (s.cnt + 1).toNat = s.cnt.toNat + 1 := BitVec.toNat_add_of_lt (by simp; omega)
    rw [hp, hn, hadd]
    omega

/-! ### The position, the pulse and the latch -/

theorem nextIdx_le {idx : BitVec 3} (h : idx.toNat ≤ 4) : (nextIdx idx).toNat ≤ 4 := by
  unfold nextIdx
  split
  · decide
  · bv_omega

theorem tick_idx_le {s : State} (h : s.idx.toNat ≤ 4) : (tick s).idx.toNat ≤ 4 := by
  cases he : phaseEnds s with
  | false => obtain ⟨-, -, hi⟩ := tick_goes_on s he; rw [hi]; exact h
  | true =>
    cases hp : s.phase with
    | blank => obtain ⟨-, -, hi⟩ := tick_blank_ends s hp he; rw [hi]; exact h
    | drive => obtain ⟨-, -, hi⟩ := tick_drive_ends s hp he; rw [hi]; exact nextIdx_le h

/-- A count-down that has not run out had not run out before. -/
theorem ne_zero_of_pulseStep_ne_zero {r : BitVec 24} (h : pulseStep r ≠ 0) : r ≠ 0 := by
  rintro rfl
  exact h rfl

/-- A sample that starts a pulse latches (43 R177, first row). -/
theorem judge_of_triggers {l : Latch} {thresh : Word} {x : Sample} (h : triggers l thresh x = true) :
    judge l thresh x = .latched := by
  obtain ⟨rfl, hx⟩ : l = .idle ∧ exceedsTrigger thresh x = true := by simpa [triggers] using h
  simp [judge, hx]

/-- 10 R37 (e), (f) after an accepted sample: a pulse is at most PULSE_TICKS and only while LATCHED. -/
theorem acceptSample_pulse (x : Sample) {s : State} (hidle : s.pulseRem = 0) :
    (acceptSample x s).pulseRem.toNat ≤ s.cfg.pulseTicks ∧
      ((acceptSample x s).pulseRem ≠ 0 → (acceptSample x s).latch = .latched) := by
  cases hf : triggers s.latch s.thresh x with
  | true =>
    exact ⟨by simpa [acceptSample, hf] using Nat.mod_le _ _, fun _ => judge_of_triggers hf⟩
  | false =>
    have h0 : (acceptSample x s).pulseRem = 0 := by simp [acceptSample, hf, hidle, pulseStep]
    exact ⟨by simp [h0], fun hne => absurd h0 hne⟩

/-! ### The invariant at reset (10 R36) -/

/-- Every slot of the reset frame holds the glyph code 31, valid in every legal ROM (40 R101 (c)). -/
theorem frameValid_reset {c : Config} (hc : c.legal = true) : frameValid c 0x1F7DF7DF = true := by
  obtain ⟨-, -, -, -, -, -, -, -, -, -, -, h31⟩ := c.legal_iff.1 hc
  have hslots : ∀ k ∈ List.range 5, glyphOf 0x1F7DF7DF k = 31 := by decide
  exact List.all_eq_true.2 fun k hk => by
    rw [hslots k hk]
    exact (c.validGlyph_iff 31).2 ⟨_, h31⟩

theorem resetWith_reachableInv {c : Config} (hc : c.legal = true) (host : List HostOp) :
    ReachableInv (State.resetWith c host) where
  idx_le := by simp [State.resetWith]
  cnt_blank _ := (phaseTicks_bounds hc .blank).1
  cnt_drive _ := (phaseTicks_bounds hc .drive).1
  frame_valid := frameValid_reset hc
  snap_valid := frameValid_reset hc
  band := show (rstTh 0x0FFF0000).toNat < (trigTh 0x0FFF0000).toNat by decide
  thresh_reserved := show threshReservedClear 0x0FFF0000 = true by decide
  pulse_le := Nat.zero_le _
  pulse_latched h := absurd rfl h

/-- Settles O37: the sentinel 31 makes the reset frame valid in every legal ROM, and the reference
configuration is legal. -/
theorem resetStatesMeetTheInvariant : Obligations.ResetStatesMeetTheInvariant :=
  ⟨fun _ host hc => ⟨hc, fun _ => resetWith_reachableInv hc host⟩,
    have hc : referenceConfig.legal = true := by decide
    ⟨hc, fun _ => resetWith_reachableInv hc []⟩⟩

/-! ### The invariant along a step (10 R37) -/

/-- The invariant reads neither the host's list nor the counter of free values. -/
theorem ReachableInv.with_host_draws {s : State} (h : ReachableInv s) (host : List HostOp) (draws : Nat) :
    ReachableInv { s with host := host, draws := draws } :=
  ⟨h.idx_le, h.cnt_blank, h.cnt_drive, h.frame_valid, h.snap_valid, h.band, h.thresh_reserved,
    h.pulse_le, h.pulse_latched⟩

theorem ReachableInv.cnt_lt {s : State} (h : ReachableInv s) :
    s.cnt.toNat < phaseTicks s.cfg s.phase := by
  cases hp : s.phase with
  | blank => exact h.cnt_blank hp
  | drive => exact h.cnt_drive hp

/-- TICK keeps the invariant. -/
theorem ReachableInv.tick {s : State} (hc : s.cfg.legal = true) (h : ReachableInv s) :
    ReachableInv (tick s) where
  idx_le := tick_idx_le h.idx_le
  cnt_blank hp := by simpa [hp, phaseTicks] using tick_cnt_lt hc h.cnt_lt
  cnt_drive hp := by simpa [hp, phaseTicks] using tick_cnt_lt hc h.cnt_lt
  frame_valid := by simpa using h.frame_valid
  snap_valid := by
    rw [tick_cfg, tick_snap]
    split
    · exact h.frame_valid
    · exact h.snap_valid
  band := by simpa using h.band
  thresh_reserved := by simpa using h.thresh_reserved
  pulse_le := by
    have := h.pulse_le
    rw [tick_pulseRem, tick_cfg, pulseStep_toNat]
    omega
  pulse_latched hne := by
    simpa using h.pulse_latched (ne_zero_of_pulseStep_ne_zero hne)

/-- FRAME holds valid glyph codes after every command: a FRAME_WR is accepted only with such (41 R121). -/
theorem exec_frameValid {i : Instr} {s t : State} (h : ReachableInv s) (he : exec i s = .next t) :
    frameValid s.cfg t.frame = true := by
  obtain hf | ⟨w, -, hl, hf, -⟩ := exec_frame i s t he <;> rw [hf]
  · exact h.frame_valid
  · exact (Bool.and_eq_true_iff.1 hl).2

/-- The band and the reserved bits of THRESH after every command: a THRESH_WR is accepted only with
RST_TH < TRIG_TH and the reserved bits 0 (43 R171). -/
theorem exec_threshLegal {i : Instr} {s t : State} (h : ReachableInv s) (he : exec i s = .next t) :
    threshReservedClear t.thresh = true ∧ (rstTh t.thresh).toNat < (trigTh t.thresh).toNat := by
  obtain hth | ⟨w, -, hl, hth, -⟩ := exec_thresh i s t he <;> rw [hth]
  · exact ⟨h.thresh_reserved, h.band⟩
  · obtain ⟨hres, hband⟩ := Bool.and_eq_true_iff.1 hl
    exact ⟨hres, decide_eq_true_iff.1 hband⟩

/-- PULSE_REM and LATCHED after every command: as TICK leaves them, or as an accepted sample does. -/
theorem exec_pulse {i : Instr} {s t : State} (h : ReachableInv (tick s)) (he : exec i s = .next t) :
    t.pulseRem.toNat ≤ s.cfg.pulseTicks ∧ (t.pulseRem ≠ 0 → t.latch = .latched) := by
  obtain ⟨hl, -, hr, -⟩ | ⟨w, -, -, hb, rfl⟩ := exec_latch_parts i s t he
  · rw [hl, hr]
    exact ⟨by simpa using h.pulse_le, by simpa using h.pulse_latched⟩
  · exact acceptSample_pulse _ ((pulseBusy_false_iff s).1 hb)

/-- Every command keeps the invariant: the scan is TICK's, and what the command writes it has checked. -/
theorem ReachableInv.exec {i : Instr} {s t : State} (hc : s.cfg.legal = true) (h : ReachableInv s)
    (he : exec i s = .next t) : ReachableInv t := by
  obtain ⟨u, hu, hscan⟩ := exec_next i s
  obtain rfl : t = u := Host.Outcome.next.inj (he.symm.trans hu)
  have ht := h.tick hc
  obtain ⟨hres, hband⟩ := exec_threshLegal h he
  obtain ⟨hle, hlatched⟩ := exec_pulse ht he
  exact {
    idx_le := hscan.idx ▸ ht.idx_le
    cnt_blank := by simpa [hscan.phase, hscan.cnt, hscan.cfg] using ht.cnt_blank
    cnt_drive := by simpa [hscan.phase, hscan.cnt, hscan.cfg] using ht.cnt_drive
    frame_valid := hscan.cfg ▸ exec_frameValid h he
    snap_valid := by simpa [hscan.snap, hscan.cfg] using ht.snap_valid
    band := hband
    thresh_reserved := hres
    pulse_le := hscan.cfg ▸ hle
    pulse_latched := hlatched }

/-- A cycle of MPX proper keeps the invariant: TICK does where no transaction is presented, the command
where one is. -/
theorem ReachableInv.step_plain {s t : State} (hp : plainCycle s) (h : ReachableInv s)
    (hs : step s = .next t) : ReachableInv t := by
  have hc : (hostTaken s).cfg.legal = true := hp.1
  have h0 : ReachableInv (hostTaken s) := h.with_host_draws s.host.tail s.draws
  obtain ⟨t', u, hs', hend, hu⟩ := Machine.step_plain s hp
  obtain rfl : t = t' := Host.Outcome.next.inj (hs.symm.trans hs')
  have hinv : ReachableInv u := by
    obtain ⟨-, rfl⟩ | ⟨x, i, -, -, he⟩ := hend
    · exact h0.tick hc
    · exact h0.exec hc he
  obtain rfl | ⟨-, -, rfl⟩ := hu
  · exact hinv
  · exact hinv.with_host_draws _ u.draws

/-- Settles O38: a cycle of MPX proper keeps the invariant, a reset edge makes it true whatever was before,
and before a reset edge only the configuration is spoken of. -/
theorem everyStepKeepsTheInvariant : Obligations.EveryStepKeepsTheInvariant := by
  rintro s t ⟨hc, hinv⟩ hs
  refine ⟨by rw [step_cfg hs]; exact hc, fun hr => ?_⟩
  obtain hp | rfl | ⟨-, hr'⟩ := step_cases hs
  · have ⟨_, hdone, _⟩ := hp
    exact (hinv hdone).step_plain hp hs
  · exact (resetWith_reachableInv (c := s.cfg) hc s.host.tail).with_host_draws s.host.tail s.draws
  · simp [hr'] at hr

end Sys2Proof.Machine
end

section
/-! A transaction at the interface (20 R51): what an instruction word's bytes lay out is what the host
presents when the word is placed, and a step runs the presented transaction's command. -/
open Sys2Proof Sys2Proof.Machine

namespace Sys2Proof

/-- Joining the six bytes of a number gives the number back (log entry 8). -/
theorem bytesToBits_extractLsb' (v : BitVec 48) :
    bytesToBits (v.extractLsb' 0 8) (v.extractLsb' 8 8) (v.extractLsb' 16 8)
      (v.extractLsb' 24 8) (v.extractLsb' 32 8) (v.extractLsb' 40 8) = v := by
  simp only [bytesToBits]
  iterate 5 rw [BitVec.extractLsb'_append_extractLsb'_eq_extractLsb' (by rfl)]
  exact BitVec.extractLsb'_eq_self

/-- The bytes of a number lay out the transaction of its low 41 bits, if the padding above them is 0. -/
theorem decodeBytesTxn_bitsToBytes (v : BitVec 48) (rest : List Byte) :
    decodeBytesTxn (bitsToBytes v ++ rest) =
      if v.extractLsb' 41 7 = 0#7 then .ok (Txn.ofBits (v.extractLsb' 0 41), rest)
      else .error .paddingNotZero := by
  simp only [bitsToBytes, List.cons_append, List.nil_append, decodeBytesTxn, bytesToBits_extractLsb',
    beq_iff_eq]

/-- An instruction word decodes as its transaction does, if the padding of its six bytes is 0. -/
theorem decodeTableWord_eq_some_iff {nbits w : Nat} {i : Instr} :
    decodeTableWord nbits w = some i ↔
      (BitVec.ofNat 48 (w % 2 ^ nbits)).extractLsb' 41 7 = 0#7 ∧
        decodeTxn (tableWordTxn nbits w) = .ok i := by
  have hlow : Txn.ofBits ((BitVec.ofNat 48 (w % 2 ^ nbits)).extractLsb' 0 41) = tableWordTxn nbits w := by
    rw [tableWordTxn, ← BitVec.setWidth_eq_extractLsb' (by decide), BitVec.setWidth_ofNat_of_le (by decide)]
  have hbytes := decodeBytesTxn_bitsToBytes (BitVec.ofNat 48 (w % 2 ^ nbits)) []
  rw [List.append_nil, hlow] at hbytes
  simp only [decodeTableWord, decode, tableWordBytes, hbytes]
  by_cases hpad : (BitVec.ofNat 48 (w % 2 ^ nbits)).extractLsb' 41 7 = 0#7
  · cases hd : decodeTxn (tableWordTxn nbits w) <;> simp [hpad, hd]
  · simp [hpad]

end Sys2Proof

namespace Sys2Proof.Machine

/-- Settles O6: the step does the host's next entry, and that entry's cycle runs the decoded command. -/
theorem stepRunsTheDecodedInstruction : Obligations.StepRunsTheDecodedInstruction := by
  intro s t i hc hr hn hd
  calc step s
    _ = runHostOp (hostNext s) (hostTaken s) := step_eq s hc
    _ = runCycle false (some t) (hostTaken s) := by rw [hn]; rfl
    _ = exec i (hostTaken s) := runCycle_txn t i (hostTaken s) hr hd

/-- Settles O7: placing the word makes its transaction the host's next entry, and takes the place of the
entry that `hostTaken` takes off. -/
theorem fetchWordRunsItsInstruction : Obligations.FetchWordRunsItsInstruction := by
  intro s nbits w i hc hr hw
  obtain ⟨-, hd⟩ := decodeTableWord_eq_some_iff.1 hw
  exact stepRunsTheDecodedInstruction (s.withFetchWord nbits w) (tableWordTxn nbits w) i hc hr
    (hostNext_presentNext _ s) hd

end Sys2Proof.Machine
end

section
/-! The encoding (30 R70 to R75): which instruction a transaction decodes to, by its command and its data
word, and that the bytes of an instruction word lay out their transaction. -/
open Sys2Proof Sys2Proof.Machine

namespace Sys2Proof

/-! ### The fields of a command (30 R71) -/

@[simp] theorem mkCmd_we (we : Bool) (word : BitVec 6) (low : BitVec 2) :
    (mkCmd we word low).we = we := by
  revert we word low; decide

/-- The word index of a command, or its low bits where the row fixes the others. -/
theorem mkCmd_extractLsb' (we : Bool) (word : BitVec 6) (low : BitVec 2) {n : Nat} (hn : n ≤ 6) :
    (mkCmd we word low).extractLsb' 2 n = word.extractLsb' 0 n := by
  rw [mkCmd, BitVec.extractLsb'_append_eq_of_le (by decide),
    BitVec.extractLsb'_append_eq_of_add_le (by omega)]

/-- A row that fixes every bit matches one command only. -/
theorem eq_of_and_fullMask {c p : Cmd} (h : c &&& 0x1FF = p) : c = p :=
  (BitVec.and_allOnes (x := c)).symm.trans h

@[simp] theorem Txn.cmd_we (t : Txn) : t.cmd.we = t.we := congrArg Txn.we (ofCmd_eta t)

@[simp] theorem Txn.cmd_off (t : Txn) : t.cmd.off = t.off := congrArg Txn.off (ofCmd_eta t)

/-! ### The data word (20 R51) -/

theorem keptData_write {c : Cmd} (h : c.we = true) (w : Word) : keptData c w = w := if_pos h

theorem keptData_read {c : Cmd} (h : c.we = false) (w : Word) : keptData c w = 0 :=
  if_neg (Bool.eq_false_iff.1 h)

theorem keptData_idem (c : Cmd) (w : Word) : keptData c (keptData c w) = keptData c w := by
  cases h : c.we with
  | true => rw [keptData_write h]
  | false => rw [keptData_read h, keptData_read h]

theorem keptData_txn (t : Txn) : keptData t.cmd t.wdata = if t.we then t.wdata else 0 := by
  rw [keptData, Txn.cmd_we]

theorem readCarriesNoData_iff_keptData (c : Cmd) (w : Word) :
    readCarriesNoData c.we w = true ↔ keptData c w = w := by
  cases h : c.we with
  | true => simp [readCarriesNoData, keptData_write h]
  | false => rw [keptData_read h, eq_comm (b := w)]; simp [readCarriesNoData]

/-- A term is well formed when it holds the data word that the decoder keeps for its command. -/
theorem wellFormed_iff_keptData (i : Instr) : i.wellFormed = true ↔ keptData i.cmd i.data = i.data := by
  have hboth {we : Bool} {word : BitVec 6} {low : BitVec 2} {w : Word} :
      readCarriesNoData we w = true ↔ keptData (mkCmd we word low) w = w := by
    rw [← readCarriesNoData_iff_keptData, mkCmd_we]
  cases i with
  | illegalMisaligned1 | illegalMisaligned2 | illegalMisaligned3 => exact hboth
  | illegalUnmapped1C | illegalUnmapped20To3C | illegalUnmapped40To7C => exact hboth
  | romRd g => exact iff_of_true rfl (keptData_read (mkCmd_we _ _ _) 0)
  | illegalRomWr g w => exact iff_of_true rfl (keptData_write (mkCmd_we _ _ _) w)
  | frameWr w | threshWr w | sampleWr w | ctrlWr w | statusWr w | illegalScanWr w | illegalSnapWr w =>
    exact iff_of_true rfl (keptData_write (by simp [Instr.cmd, Cmd.we]) w)
  | frameRd | threshRd | sampleRd | ctrlRd | statusRd | scanRd | snapRd =>
    exact iff_of_true rfl (ite_self 0)

/-! ### The rows of the table (30 R74, R75) -/

/-- What the row builds from a command it matches has that command, and the data word kept for it. -/
def Row.KeepsTransaction (r : Row) : Prop :=
  ∀ (c : Cmd) (w : Word), c &&& r.mask = r.pattern →
    (r.build c w).cmd = c ∧ (r.build c w).data = keptData c w

/-- A row of one command need be checked for that command only. -/
theorem Row.keepsTransaction_of_fullMask {r : Row} (hm : r.mask = 0x1FF)
    (h : ∀ w, (r.build r.pattern w).cmd = r.pattern ∧ (r.build r.pattern w).data = keptData r.pattern w) :
    r.KeepsTransaction := by
  intro c w hc
  obtain rfl : c = r.pattern := eq_of_and_fullMask (hm ▸ hc)
  exact h w

theorem legalRows_keepTransaction : ∀ r ∈ legalRows, r.KeepsTransaction := by
  have hrom : ∀ c : Cmd, c &&& 0x183 = 0x080 →
      mkCmd false (1#1 ++ c.extractLsb' 2 5) 0 = c ∧ c.we = false := by decide
  simp only [legalRows, List.forall_mem_cons, List.not_mem_nil, false_imp_iff, implies_true, and_true]
  refine ⟨?_, ?_, ?_, ?_, ?_, ?_, ?_, ?_, ?_, ?_, ?_, ?_, fun c w hc => ?_⟩
  case refine_13 =>
    obtain ⟨hcmd, hwe⟩ := hrom c hc
    exact ⟨hcmd, (keptData_read hwe w).symm⟩
  all_goals exact Row.keepsTransaction_of_fullMask rfl fun w => ⟨rfl, rfl⟩

theorem illegalRows_keepTransaction : ∀ r ∈ illegalRows, r.KeepsTransaction := by
  have hmis1 : ∀ c : Cmd, c &&& 0x003 = 0x001 → mkCmd c.we (c.extractLsb' 2 6) 1 = c := by decide
  have hmis2 : ∀ c : Cmd, c &&& 0x003 = 0x002 → mkCmd c.we (c.extractLsb' 2 6) 2 = c := by decide
  have hmis3 : ∀ c : Cmd, c &&& 0x003 = 0x003 → mkCmd c.we (c.extractLsb' 2 6) 3 = c := by decide
  have hrom : ∀ c : Cmd, c &&& 0x183 = 0x180 →
      mkCmd true (1#1 ++ c.extractLsb' 2 5) 0 = c ∧ c.we = true := by decide
  have h1C : ∀ c : Cmd, c &&& 0x0FF = 0x01C → mkCmd c.we 7 0 = c := by decide
  have h20 : ∀ c : Cmd, c &&& 0x0E3 = 0x020 →
      mkCmd c.we (0b001#3 ++ c.extractLsb' 2 3) 0 = c := by decide
  have h40 : ∀ c : Cmd, c &&& 0x0C3 = 0x040 →
      mkCmd c.we (0b01#2 ++ c.extractLsb' 2 4) 0 = c := by decide
  simp only [illegalRows, List.forall_mem_cons, List.not_mem_nil, false_imp_iff, implies_true, and_true]
  exact ⟨fun c w hc => ⟨hmis1 c hc, rfl⟩, fun c w hc => ⟨hmis2 c hc, rfl⟩,
    fun c w hc => ⟨hmis3 c hc, rfl⟩,
    Row.keepsTransaction_of_fullMask rfl fun w => ⟨rfl, rfl⟩,
    Row.keepsTransaction_of_fullMask rfl fun w => ⟨rfl, rfl⟩,
    fun c w hc => ⟨(hrom c hc).1, (keptData_write (hrom c hc).2 w).symm⟩,
    fun c w hc => ⟨h1C c hc, rfl⟩, fun c w hc => ⟨h20 c hc, rfl⟩, fun c w hc => ⟨h40 c hc, rfl⟩⟩

/-- Every well-formed instruction is what a row matching its command builds. -/
theorem exists_row_build {i : Instr} (h : i.wellFormed = true) :
    ∃ r ∈ opcodeTable, i.cmd &&& r.mask = r.pattern ∧ r.build i.cmd i.data = i := by
  have hw : keptData i.cmd i.data = i.data := (wellFormed_iff_keptData i).1 h
  have row {r : Row} (k : Nat) (hk : opcodeTable[k]? = some r) (hm : i.cmd &&& r.mask = r.pattern)
      (hb : r.build i.cmd i.data = i) :
      ∃ r ∈ opcodeTable, i.cmd &&& r.mask = r.pattern ∧ r.build i.cmd i.data = i :=
    ⟨r, List.mem_of_getElem? hk, hm, hb⟩
  cases i with
  | frameRd => exact row 0 rfl Laws.EncodesItsRow.frameRd rfl
  | frameWr w => exact row 1 rfl (Laws.EncodesItsRow.frameWr w) rfl
  | threshRd => exact row 2 rfl Laws.EncodesItsRow.threshRd rfl
  | threshWr w => exact row 3 rfl (Laws.EncodesItsRow.threshWr w) rfl
  | sampleRd => exact row 4 rfl Laws.EncodesItsRow.sampleRd rfl
  | sampleWr w => exact row 5 rfl (Laws.EncodesItsRow.sampleWr w) rfl
  | ctrlRd => exact row 6 rfl Laws.EncodesItsRow.ctrlRd rfl
  | ctrlWr w => exact row 7 rfl (Laws.EncodesItsRow.ctrlWr w) rfl
  | statusRd => exact row 8 rfl Laws.EncodesItsRow.statusRd rfl
  | statusWr w => exact row 9 rfl (Laws.EncodesItsRow.statusWr w) rfl
  | scanRd => exact row 10 rfl Laws.EncodesItsRow.scanRd rfl
  | snapRd => exact row 11 rfl Laws.EncodesItsRow.snapRd rfl
  | romRd g =>
    have hlow : (1#1 ++ g : BitVec 6).extractLsb' 0 5 = g := BitVec.extractLsb'_append_eq_right
    exact row 12 rfl (Laws.EncodesItsRow.romRd g) (by simp [Instr.cmd, mkCmd_extractLsb', hlow])
  | illegalMisaligned1 we word w =>
    exact row 13 rfl (Laws.EncodesItsRow.illegalMisaligned1 we word w)
      (by simpa [Instr.cmd, Instr.data, mkCmd_extractLsb'] using hw)
  | illegalMisaligned2 we word w =>
    exact row 14 rfl (Laws.EncodesItsRow.illegalMisaligned2 we word w)
      (by simpa [Instr.cmd, Instr.data, mkCmd_extractLsb'] using hw)
  | illegalMisaligned3 we word w =>
    exact row 15 rfl (Laws.EncodesItsRow.illegalMisaligned3 we word w)
      (by simpa [Instr.cmd, Instr.data, mkCmd_extractLsb'] using hw)
  | illegalScanWr w => exact row 16 rfl (Laws.EncodesItsRow.illegalScanWr w) rfl
  | illegalSnapWr w => exact row 17 rfl (Laws.EncodesItsRow.illegalSnapWr w) rfl
  | illegalRomWr g w =>
    have hlow : (1#1 ++ g : BitVec 6).extractLsb' 0 5 = g := BitVec.extractLsb'_append_eq_right
    exact row 18 rfl (Laws.EncodesItsRow.illegalRomWr g w)
      (by simp [Instr.cmd, Instr.data, mkCmd_extractLsb', hlow])
  | illegalUnmapped1C we w =>
    exact row 19 rfl (Laws.EncodesItsRow.illegalUnmapped1C we w) (by simpa [Instr.cmd, Instr.data] using hw)
  | illegalUnmapped20To3C we word w =>
    have hlow : (0b001#3 ++ word : BitVec 6).extractLsb' 0 3 = word := BitVec.extractLsb'_append_eq_right
    exact row 20 rfl (Laws.EncodesItsRow.illegalUnmapped20To3C we word w)
      (by simpa [Instr.cmd, Instr.data, mkCmd_extractLsb', hlow] using hw)
  | illegalUnmapped40To7C we word w =>
    have hlow : (0b01#2 ++ word : BitVec 6).extractLsb' 0 4 = word := BitVec.extractLsb'_append_eq_right
    exact row 21 rfl (Laws.EncodesItsRow.illegalUnmapped40To7C we word w)
      (by simpa [Instr.cmd, Instr.data, mkCmd_extractLsb', hlow] using hw)

/-! ### The decoder (30 R74) -/

/-- A matching row gives the decoder's answer wherever it stands in the table: no other row matches. -/
theorem decodeTxn_of_mem {t : Txn} {r : Row} (hr : r ∈ opcodeTable)
    (hm : t.cmd &&& r.mask = r.pattern) : decodeTxn t = .ok (r.build t.cmd t.wdata) := by
  obtain ⟨r', hfind⟩ := find_row_isSome t.cmd
  have hmem : r ∈ opcodeTable.filter (fun r => r.matches t.cmd) :=
    List.mem_filter.2 ⟨hr, beq_iff_eq.2 hm⟩
  have hmem' : r' ∈ opcodeTable.filter (fun r => r.matches t.cmd) :=
    List.mem_filter.2 ⟨List.mem_of_find?_eq_some hfind, by simpa using List.find?_some hfind⟩
  obtain ⟨only, honly⟩ := List.length_eq_one_iff.1 (rowCount_eq_one t.cmd)
  rw [honly, List.mem_singleton] at hmem hmem'
  simp only [decodeTxn, hfind, hmem, hmem']

/-- A well-formed instruction is what its own transaction decodes to. -/
theorem decodeTxn_txn {i : Instr} (h : i.wellFormed = true) : decodeTxn i.txn = .ok i := by
  obtain ⟨r, hmem, hm, hb⟩ := exists_row_build h
  have hc : i.txn.cmd = i.cmd := ofCmd_cmd i.cmd i.data
  rw [decodeTxn_of_mem hmem (hc ▸ hm), hc]
  exact congrArg Except.ok hb

/-- The command and the data word of what a transaction decodes to. -/
theorem cmd_data_of_decodeTxn {t : Txn} {i : Instr} (hd : decodeTxn t = .ok i) :
    i.cmd = t.cmd ∧ i.data = keptData t.cmd t.wdata := by
  obtain ⟨r, hfind⟩ := find_row_isSome t.cmd
  have hmem : r ∈ legalRows ++ illegalRows := List.mem_of_find?_eq_some hfind
  have hm : r.matches t.cmd = true := by simpa using List.find?_some hfind
  have hkeeps : r.KeepsTransaction :=
    (List.mem_append.1 hmem).elim (legalRows_keepTransaction r) (illegalRows_keepTransaction r)
  obtain rfl : r.build t.cmd t.wdata = i := by simpa [decodeTxn, hfind] using hd
  exact hkeeps t.cmd t.wdata (beq_iff_eq.1 hm)

/-- An instruction that holds the data word kept of a transaction of its command is well formed. -/
theorem wellFormed_of_cmd_data {i : Instr} {c : Cmd} {w : Word} (hc : i.cmd = c)
    (hw : i.data = keptData c w) : i.wellFormed = true := by
  rw [wellFormed_iff_keptData, hc, hw, keptData_idem]

/-- A transaction decodes to the one instruction with its command and the data word kept for it. -/
theorem decodeTxn_eq_ok_iff {t : Txn} {i : Instr} :
    decodeTxn t = .ok i ↔ i.cmd = t.cmd ∧ i.data = keptData t.cmd t.wdata := by
  refine ⟨cmd_data_of_decodeTxn, fun ⟨hc, hw⟩ => ?_⟩
  obtain ⟨i', hd⟩ := decodeTxn_ok t
  obtain ⟨hc', hw'⟩ := cmd_data_of_decodeTxn hd
  have htxn : i.txn = i'.txn := by rw [Instr.txn, Instr.txn, hc, hw, hc', hw']
  calc decodeTxn t
    _ = .ok i' := hd
    _ = decodeTxn i'.txn := (decodeTxn_txn (wellFormed_of_cmd_data hc' hw')).symm
    _ = decodeTxn i.txn := by rw [htxn]
    _ = .ok i := decodeTxn_txn (wellFormed_of_cmd_data hc hw)

/-- Settles O4: the decoder keeps the command and the data word of a write, and a term that holds the data
word kept for its command is well formed. -/
theorem decodedInstructionKeepsItsTransaction : Obligations.DecodedInstructionKeepsItsTransaction := by
  intro t
  obtain ⟨i, hd⟩ := decodeTxn_ok t
  obtain ⟨hc, hw⟩ := cmd_data_of_decodeTxn hd
  exact ⟨i, hd, wellFormed_of_cmd_data hc hw, (congrArg Cmd.we hc).trans t.cmd_we,
    (congrArg Cmd.off hc).trans t.cmd_off, hw.trans (keptData_txn t)⟩

/-- Settles O1: each row's command has the `we` bit and the offset of the table. -/
theorem legalCommandsDecodeByTheTable : Obligations.LegalCommandsDecodeByTheTable := by
  intro w g
  have hrom : (Instr.romRd g).cmd = Txn.cmd ⟨false, BitVec.ofNat 8 (0x80 + 4 * g.toNat), w⟩ := by
    revert g; simp only [Txn.cmd, Instr.cmd]; decide
  have hdecode {t : Txn} {i : Instr} (hc : i.cmd = t.cmd) (hw : i.data = if t.we then t.wdata else 0) :
      decodeTxn t = .ok i := decodeTxn_eq_ok_iff.2 ⟨hc, hw.trans (keptData_txn t).symm⟩
  refine ⟨?_, ?_, ?_, ?_, ?_, ?_, ?_, ?_, ?_, ?_, ?_, ?_, hdecode hrom rfl⟩
  all_goals exact hdecode (by simp [Txn.cmd, Instr.cmd]) rfl

/-! ### The bytes of an instruction word (log entry 8) -/

theorem decodeBytesTxn_bytes (t : Txn) (rest : List Byte) :
    decodeBytesTxn (t.bytes ++ rest) = .ok (t, rest) := by
  have hpad : (0#7 ++ t.wdata ++ t.cmd : BitVec 48).extractLsb' 41 7 = 0#7 := by
    rw [BitVec.extractLsb'_append_eq_of_le (by decide)]
    exact BitVec.extractLsb'_append_eq_left
  have hcmd : (0#7 ++ t.wdata ++ t.cmd : BitVec 48).extractLsb' 0 9 = t.cmd :=
    BitVec.extractLsb'_append_eq_right
  have hdata : (0#7 ++ t.wdata ++ t.cmd : BitVec 48).extractLsb' 9 32 = t.wdata := by
    rw [BitVec.extractLsb'_append_eq_of_le (by decide)]
    exact BitVec.extractLsb'_append_eq_right
  rw [Txn.bytes, decodeBytesTxn_bitsToBytes, if_pos hpad, Txn.ofBits,
    BitVec.extractLsb'_extractLsb'_of_le (by decide), BitVec.extractLsb'_extractLsb'_of_le (by decide),
    hcmd, hdata, ofCmd_eta]

/-- Settles O3: the bytes lay out the instruction's transaction, and that decodes to the instruction. -/
theorem encodeThenDecodeIsIdentity : Obligations.EncodeThenDecodeIsIdentity := by
  intro i rest h
  simp only [decode, encode, decodeBytesTxn_bytes, decodeTxn_txn h]

/-- Settles O5: seven closed words, each run through the decoder. -/
theorem sevenWrittenOutWordsDecode : Obligations.SevenWrittenOutWordsDecode := by
  unfold Obligations.SevenWrittenOutWordsDecode
  decide

end Sys2Proof
end

section
/-! Access errors (30 R75): every illegal command is one. -/
open Sys2Proof Sys2Proof.Machine

namespace Sys2Proof.Machine

/-- ERR_BUS is bit 4 of ERR (10 R33). -/
theorem setErr_errBus (err : BitVec 5) : setErr err .errBus = err ||| 0b10000#5 := by
  rw [setErr, mask_errBus]

/-- Settles O24: each illegal command is `accessError`, whatever its operands. -/
theorem illegalCommandsAreAccessErrors : Obligations.IllegalCommandsAreAccessErrors := by
  intro s t we w x6 x3 x4 g ht
  have h : accessError s = .next t := by rw [accessError_eq, setErr_errBus, ht]
  exact ⟨h, h, h, h, h, h, h, h, h⟩

end Sys2Proof.Machine
end

section
/-! The host's loop WAITPULSE (30 R81): each STATUS read tells whether the pulse is active, so the loop lasts
as long as PULSE_REM counts down (43 R181). -/
open Sys2Proof Sys2Proof.Machine

namespace Sys2Proof.Machine

/-- Bit 1 of STATUS is PULSE_BUSY (44 R203). -/
theorem statusWord_pulseBusy (s : State) : (statusWord s).getLsbD 1 = s.pulseBusy := by
  rw [statusWord, BitVec.getLsbD_append, BitVec.getLsbD_append]
  simp

/-- A state of a machine that has been reset, whose host is in WAITPULSE with the entries `rest` after it. -/
structure Polling (rest : List HostOp) (s : State) : Prop where
  legal : s.cfg.legal = true
  resetDone : s.resetDone = true
  host : s.host = .waitPulse :: rest

/-- One cycle of WAITPULSE: a STATUS read, after which the loop goes on exactly when a pulse is active. -/
theorem Polling.step_next {rest : List HostOp} {s : State} (h : Polling rest s) :
    step s = .next { tick s with
      host := if s.pulseBusy then .waitPulse :: rest else rest
      resp := some (.okayData (statusWord s)) } := by
  obtain ⟨hc, hr, hh⟩ := h
  have hn : hostNext s = .waitPulse := by rw [hostNext, hh]; rfl
  have hread : runCycle false (some statusReadTxn) (hostTaken s) =
      .next { tick (hostTaken s) with resp := some (.okayData (statusWord s)) } :=
    runCycle_txn statusReadTxn .statusRd (hostTaken s) hr decodeTxn_statusRead
  have hagain : pollAgain (some (.okayData (statusWord s))) = s.pulseBusy := statusWord_pulseBusy s
  rw [step_eq s hc, hn, runHostOp, pollCycle, hread, tick_hostTaken]
  cases hb : s.pulseBusy <;> simp [hagain, hb, hh]

/-- While a pulse is active, WAITPULSE goes on for a cycle, and PULSE_REM counts that cycle. -/
theorem Polling.step_busy {rest : List HostOp} {s : State} (h : Polling rest s)
    (hb : 0 < s.pulseRem.toNat) :
    ∃ t, step s = .next t ∧ Polling rest t ∧ t.pulseRem.toNat = s.pulseRem.toNat - 1 := by
  have hbusy : s.pulseBusy = true := (pulseBusy_true_iff s).2 (by bv_omega)
  refine ⟨_, h.step_next, ⟨?_, ?_, ?_⟩, pulseStep_toNat s.pulseRem⟩
  · simpa using h.legal
  · simpa using h.resetDone
  · simp [hbusy]

/-- WAITPULSE goes on for as many cycles as PULSE_REM counts. -/
theorem Polling.runsTo (rest : List HostOp) (n : Nat) (s : State) (h : Polling rest s)
    (hn : n ≤ s.pulseRem.toNat) :
    ∃ t, RunsTo n s t ∧ Polling rest t ∧ t.pulseRem.toNat = s.pulseRem.toNat - n := by
  induction n generalizing s with
  | zero => exact ⟨s, by simp, h, rfl⟩
  | succ n ih =>
    obtain ⟨u, hs, hu, hrem⟩ := h.step_busy (by omega)
    obtain ⟨t, hrun, ht, hrem'⟩ := ih u hu (by omega)
    exact ⟨t, hrun.head hs, ht, by omega⟩

/-- Settles O52: WAITPULSE goes on while PULSE_REM counts down, and with PULSE_REM at 0 its read shows no
active pulse. -/
theorem waitPulseEndsWithThePulse : Obligations.WaitPulseEndsWithThePulse := by
  intro s rest hc hr hh
  have h : Polling rest s := ⟨hc, hr, hh⟩
  constructor
  · intro n hn
    obtain ⟨t, hrun, ht, -⟩ := h.runsTo rest n s hn
    exact ⟨t, hrun, ht.host⟩
  · obtain ⟨u, hrun, hu, hrem⟩ := h.runsTo rest _ s le_rfl
    have hidle : u.pulseBusy = false := (pulseBusy_false_iff u).2 (by bv_omega)
    have hlast : RunsTo 1 u _ := (runsTo_succ 0 u _).2 ⟨_, hu.step_next, (runsTo_zero _ _).2 rfl⟩
    refine ⟨_, statusWord u, hrun.trans hlast, ?_, rfl, ?_⟩
    · simp [hidle]
    · rw [statusWord_pulseBusy, hidle]

end Sys2Proof.Machine
end

section
/-! The ROM window (40 R104): what a read of a glyph code answers. -/
open Sys2Proof Sys2Proof.Machine

namespace Sys2Proof.Machine

/-- A reserved code reads 0. -/
theorem romWord_of_reserved {c : Config} {g : Glyph} (h : c.rom g = none) : romWord c g = 0 := by
  rw [romWord, h]

/-- Any other code reads its pattern, bits 31 to 9 of the word 0. -/
theorem romWord_of_pattern {c : Config} {g : Glyph} {p : Pattern} (h : c.rom g = some p) :
    romWord c g = p.setWidth 32 := by
  rw [romWord, h]

/-- A ROM_RD is an IDLE cycle that answers OKAY with the word of the code. -/
theorem exec_romRd (g : Glyph) (s : State) :
    exec (.romRd g) s = .next { tick s with resp := some (.okayData (romWord s.cfg g)) } :=
  respondData_eq s (romWord s.cfg g)

/-- Settles O14: the offset is the last row of the legal commands, and the word read is `romWord`, by
whether the code is reserved. -/
theorem romReadReturnsThePattern : Obligations.RomReadReturnsThePattern := by
  intro s g w
  obtain ⟨-, -, -, -, -, -, -, -, -, -, -, -, hdecode⟩ := legalCommandsDecodeByTheTable w g
  refine ⟨hdecode, fun hreserved => ?_, fun p hp => ?_⟩
  · rw [exec_romRd, romWord_of_reserved hreserved]
  · rw [exec_romRd, romWord_of_pattern hp]

end Sys2Proof.Machine
end

section
/-! Where the scan stands in its sweep (42 R141): the cycles since the sweep began, which TICK counts modulo
T_SWEEP, and at which of them the snapshot edge comes (42 R143). -/
open Sys2Proof Sys2Proof.Machine

namespace Sys2Proof.Machine

/-- The cycle of its position with which a phase begins: DRIVE comes after BLANK. -/
def phaseStart (c : Config) : Phase → Nat
  | .blank => 0
  | .drive => c.blankTicks

/-- The cycles from the start of a sweep to this one, the start being BLANK of position 0 with CNT 0. -/
def sweepCycle (s : State) : Nat :=
  s.idx.toNat * s.cfg.positionTicks + (phaseStart s.cfg s.phase + s.cnt.toNat)

theorem phaseStart_add_phaseTicks_le (c : Config) (p : Phase) :
    phaseStart c p + phaseTicks c p ≤ c.positionTicks := by
  cases p <;> simp [phaseStart, phaseTicks, Config.positionTicks]

/-- A sweep has a cycle, since a phase has one. -/
theorem sweepTicks_pos {c : Config} (hc : c.legal = true) : 0 < c.sweepTicks := by
  obtain ⟨hb, -⟩ := phaseTicks_bounds hc .blank
  have hle := phaseStart_add_phaseTicks_le c .blank
  unfold Config.sweepTicks
  omega

theorem sweepCycle_lt {s : State} (h : ReachableInv s) : sweepCycle s < s.cfg.sweepTicks := by
  have hcnt : phaseStart s.cfg s.phase + s.cnt.toNat < s.cfg.positionTicks := by
    have := phaseStart_add_phaseTicks_le s.cfg s.phase
    have := h.cnt_lt
    omega
  calc sweepCycle s
      < (s.idx.toNat + 1) * s.cfg.positionTicks := by rw [sweepCycle, Nat.succ_mul]; omega
    _ ≤ s.cfg.sweepTicks := Nat.mul_le_mul_right _ (Nat.succ_le_succ h.idx_le)

/-- While its phase goes on, CNT counts up without wrapping (10 R26, 00 R7). -/
theorem toNat_cnt_succ {s : State} (hc : s.cfg.legal = true) (h : ReachableInv s)
    (he : phaseEnds s = false) : (s.cnt + 1).toNat = s.cnt.toNat + 1 := by
  have hlt := h.cnt_lt
  have hle := (phaseTicks_bounds hc s.phase).2
  have hne : s.cnt.toNat + 1 ≠ phaseTicks s.cfg s.phase := mt (phaseEnds_iff s).2 (by simp [he])
  exact BitVec.toNat_add_of_lt (by simp; omega)

/-- TICK moves the scan on by one cycle, except that the last cycle of position 4 ends the sweep. -/
theorem sweepCycle_tick_cases {s : State} (hc : s.cfg.legal = true) (h : ReachableInv s) :
    sweepCycle (tick s) = sweepCycle s + 1 ∨
      (sweepCycle (tick s) = 0 ∧ sweepCycle s + 1 = s.cfg.sweepTicks) := by
  cases he : phaseEnds s with
  | false =>
    obtain ⟨hp, hn, hi⟩ := tick_goes_on s he
    left
    simp only [sweepCycle, hp, hn, hi, toNat_cnt_succ hc h he, tick_cfg]
    omega
  | true =>
    have hlast := (phaseEnds_iff s).1 he
    cases hp : s.phase with
    | blank =>
      obtain ⟨hp', hn, hi⟩ := tick_blank_ends s hp he
      left
      simp only [hp, phaseTicks] at hlast
      simp only [sweepCycle, hp, hp', hn, hi, phaseStart, tick_cfg, BitVec.ofNat_eq_ofNat, BitVec.toNat_zero]
      omega
    | drive =>
      obtain ⟨hp', hn, hi⟩ := tick_drive_ends s hp he
      simp only [hp, phaseTicks] at hlast
      have hend : sweepCycle s + 1 = (s.idx.toNat + 1) * s.cfg.positionTicks := by
        rw [sweepCycle, Nat.succ_mul, hp, phaseStart, Config.positionTicks]
        omega
      have hnext : sweepCycle (tick s) = (nextIdx s.idx).toNat * s.cfg.positionTicks := by
        simp [sweepCycle, hp', hn, hi, phaseStart]
      by_cases h4 : s.idx = 4
      · right
        simp [hnext, hend, h4, nextIdx, Config.sweepTicks]
      · left
        have hidx : (nextIdx s.idx).toNat = s.idx.toNat + 1 := by
          have := h.idx_le
          rw [nextIdx, if_neg h4]
          bv_omega
        rw [hnext, hend, hidx]

/-- TICK counts the cycles of a sweep modulo T_SWEEP. -/
theorem sweepCycle_tick {s : State} (hc : s.cfg.legal = true) (h : ReachableInv s) :
    sweepCycle (tick s) = (sweepCycle s + 1) % s.cfg.sweepTicks := by
  obtain hgo | ⟨hzero, hend⟩ := sweepCycle_tick_cases hc h
  · have hlt := sweepCycle_lt (h.tick hc)
    rw [hgo, tick_cfg] at hlt
    rw [hgo, Nat.mod_eq_of_lt hlt]
  · rw [hzero, hend, Nat.mod_self]

/-- The snapshot edge ends the last BLANK cycle of position 0, which is cycle BLANK_TICKS - 1 of the
sweep. -/
theorem snapshotEdge_iff_sweepCycle (s : State) :
    snapshotEdge s = true ↔ sweepCycle s + 1 = s.cfg.blankTicks := by
  simp only [snapshotEdge, Bool.and_eq_true, beq_iff_eq, phaseEnds_iff]
  constructor
  · rintro ⟨⟨hp, hlast⟩, hi⟩
    simpa [sweepCycle, hp, hi, phaseStart, phaseTicks] using hlast
  · intro hcyc
    cases hp : s.phase with
    | drive =>
      simp only [sweepCycle, hp, phaseStart] at hcyc
      omega
    | blank =>
      simp only [sweepCycle, hp, phaseStart] at hcyc
      have hi : s.idx.toNat = 0 := by
        by_contra hne
        have hpos : s.cfg.positionTicks ≤ s.idx.toNat * s.cfg.positionTicks :=
          Nat.le_mul_of_pos_left _ (Nat.pos_of_ne_zero hne)
        have hle : s.cfg.blankTicks ≤ s.cfg.positionTicks := Nat.le_add_right _ _
        omega
      rw [hi] at hcyc
      exact ⟨⟨rfl, by simp only [phaseTicks]; omega⟩, BitVec.eq_of_toNat_eq hi⟩

/-- Every cycle of MPX proper moves the scan on as TICK does. -/
theorem sweepCycle_step {s t : State} (hp : plainCycle s) (h : ReachableInv s) (hs : step s = .next t) :
    sweepCycle t = (sweepCycle s + 1) % s.cfg.sweepTicks := by
  obtain ⟨hphase, hcnt, hidx, -, hcfg, -, -⟩ := step_plain_scan s t hp hs
  rw [← sweepCycle_tick hp.1 h]
  simp only [sweepCycle, hphase, hcnt, hidx, hcfg, tick_cfg]

/-- SNAP after a cycle of MPX proper: the pre-edge FRAME at the snapshot edge, else as before (42 R143). -/
theorem snap_step {s t : State} (hp : plainCycle s) (hs : step s = .next t) :
    t.snap = if snapshotEdge s then s.frame else s.snap := by
  obtain ⟨-, -, -, hsnap, -, -, -⟩ := step_plain_scan s t hp hs
  rw [hsnap, tick_snap]

/-- The snapshot edge begins DRIVE of position 0. -/
theorem step_snapshotEdge {s t : State} (hp : plainCycle s) (hs : step s = .next t)
    (he : snapshotEdge s = true) : t.snap = s.frame ∧ t.phase = .drive ∧ t.cnt = 0 ∧ t.idx = 0 := by
  obtain ⟨hphase, hcnt, hidx, -⟩ := step_plain_scan s t hp hs
  have hsnap := snap_step hp hs
  simp only [snapshotEdge, Bool.and_eq_true, beq_iff_eq] at he
  obtain ⟨⟨hb, hends⟩, hi⟩ := he
  obtain ⟨hp', hn, hi'⟩ := tick_blank_ends s hb hends
  refine ⟨?_, hphase.trans hp', hcnt.trans hn, (hidx.trans hi').trans hi⟩
  simpa [snapshotEdge, hb, hends, hi] using hsnap

/-- A host quiet for the cycles of a run and some more is quiet for those after the run. -/
theorem quietFor_runsTo {m n : Nat} {s t : State} (hc : s.cfg.legal = true) (hr : s.resetDone = true)
    (hq : quietFor (m + n) s) (hrun : RunsTo m s t) : quietFor n t := by
  induction m generalizing s with
  | zero =>
    obtain rfl := (runsTo_zero s t).1 hrun
    simpa using hq
  | succ m ih =>
    obtain ⟨u, hs, hrun'⟩ := (runsTo_succ m s t).1 hrun
    rw [show m + 1 + n = m + n + 1 by omega] at hq
    have hp := plainCycle_of_quietFor (m + n) s hc hr hq
    obtain ⟨-, -, -, -, hcfg, hdone, -⟩ := step_plain_scan s u hp hs
    exact ih (hcfg ▸ hc) hdone (quietFor_step (m + n) s u hp hs hq) hrun'

end Sys2Proof.Machine
end

section
/-! The display buffer (41): FRAME is read and written as a whole, only an accepted FRAME_WR changes it
(R120 to R124), and what is on display is one frame from snapshot edge to snapshot edge (R125, R126). -/
open Sys2Proof Sys2Proof.Machine

namespace Sys2Proof.Machine

/-! ### FRAME_RD, SNAP_RD and FRAME_WR -/

/-- Settles O10: two rows of the table, and a read is an IDLE cycle that answers with its word. -/
theorem frameAndSnapReadsReturnTheFrames : Obligations.FrameAndSnapReadsReturnTheFrames := by
  intro s w
  obtain ⟨hframe, -, -, -, -, -, -, -, -, -, -, hsnap, -⟩ := legalCommandsDecodeByTheTable w 0
  exact ⟨hframe, hsnap, respondData_eq s (frameWord s.frame), respondData_eq s (frameWord s.snap)⟩

/-- A FRAME_WR with a legal data word (41 R121). -/
theorem exec_frameWr_legal {s : State} {w : Word} (hl : frameLegal s.cfg w = true) :
    exec (.frameWr w) s = .next { tick s with frame := frameField w, resp := some .okay } := if_pos hl

/-- A FRAME_WR with any other data word (41 R122): ERR_FRAME is bit 0 of ERR (10 R33). -/
theorem exec_frameWr_illegal {s : State} {w : Word} (hl : ¬ frameLegal s.cfg w = true) :
    exec (.frameWr w) s = .next { tick s with err := s.err ||| 0b00001#5, resp := some .slverr } := by
  have h : exec (.frameWr w) s = reject s .errFrame := if_neg hl
  rw [h, reject_eq, setErr, mask_errFrame]

/-- Settles O15: the conditions are `frameLegal`, and FRAME_WR alone writes FRAME. -/
theorem frameWriteAccepted : Obligations.FrameWriteAccepted := by
  intro s w
  obtain ⟨-, hdecode, -⟩ := legalCommandsDecodeByTheTable w 0
  refine ⟨hdecode, fun hres hglyphs => exec_frameWr_legal ((frameLegal_iff s.cfg w).2 ⟨hres, hglyphs⟩), ?_⟩
  intro i t he hne
  obtain hkept | ⟨v, hi, -⟩ := exec_frame i s t he
  · exact absurd hkept hne
  · exact ⟨v, hi⟩

/-- Settles O16: either cause breaks `frameLegal`. -/
theorem frameWriteRejected : Obligations.FrameWriteRejected := by
  intro s w hcause
  refine exec_frameWr_illegal fun hl => ?_
  obtain ⟨hres, hglyphs⟩ := (frameLegal_iff s.cfg w).1 hl
  obtain hbad | ⟨k, hk, hnone⟩ := hcause
  · exact hbad hres
  · obtain ⟨p, hp⟩ := hglyphs k hk
    simp [hnone] at hp

/-! ### What changes FRAME (41 R120) -/

/-- FRAME after a cycle of MPX proper: as before, or that of a FRAME_WR presented and accepted. -/
theorem frame_step {s t : State} (hp : plainCycle s) (hs : step s = .next t) :
    t.frame = s.frame ∨
    ∃ w, presentsFrameWr s w ∧ frameLegal s.cfg w = true ∧ t.frame = frameField w ∧ t.resp = some .okay := by
  obtain ⟨t', u, hs', hend, hu⟩ := step_plain s hp
  obtain rfl : t = t' := Host.Outcome.next.inj (hs.symm.trans hs')
  obtain ⟨hframe, hresp'⟩ : t.frame = u.frame ∧ t.resp = u.resp := by
    obtain rfl | ⟨-, -, rfl⟩ := hu <;> exact ⟨rfl, rfl⟩
  rw [hframe, hresp']
  obtain ⟨-, rfl⟩ | ⟨x, i, hx, hd, he⟩ := hend
  · exact .inl (tick_frame _)
  · obtain hkept | ⟨w, rfl, hl, hf, hresp⟩ := exec_frame i _ u he
    · exact .inl hkept
    · exact .inr ⟨w, ⟨x, hx, hd⟩, hl, hf, hresp⟩

/-- Settles O28: of the two outcomes for FRAME, the change leaves the accepted FRAME_WR. -/
theorem frameChangesOnlyByFrameWrite : Obligations.FrameChangesOnlyByFrameWrite := by
  intro s t hp hs hne
  obtain hkept | ⟨w, hw, -, hf, hresp⟩ := frame_step hp hs
  · exact absurd hkept hne
  · exact ⟨w, hw, hf, hresp⟩

/-! ### One frame throughout a sweep (41 R126) -/

/-- The state `k` cycles after the snapshot edge that led to `s`: the scan has gone on by `k` cycles, and
less than a sweep after the edge SNAP is what it was. -/
structure SinceSnapshot (s : State) (k : Nat) (t : State) : Prop where
  cfg : t.cfg = s.cfg
  inv : ReachableInv t
  cycle : sweepCycle t = (s.cfg.blankTicks + k) % s.cfg.sweepTicks
  snap : k < s.cfg.sweepTicks → t.snap = s.snap

/-- The state right after a snapshot edge: DRIVE of position 0 begins. -/
theorem SinceSnapshot.start {s : State} (h : ReachableInv s) (hp : s.phase = .drive) (hn : s.cnt = 0)
    (hi : s.idx = 0) : SinceSnapshot s 0 s where
  cfg := rfl
  inv := h
  cycle := by
    have hcyc : sweepCycle s = s.cfg.blankTicks := by simp [sweepCycle, hp, hn, hi, phaseStart]
    rw [Nat.add_zero, ← hcyc, Nat.mod_eq_of_lt (sweepCycle_lt h)]
  snap _ := rfl

/-- Within T_SWEEP cycles of a snapshot edge only the last ends in the next one. -/
theorem SinceSnapshot.snapshotEdge_iff {s t : State} {k : Nat} (h : SinceSnapshot s k t)
    (hc : s.cfg.legal = true) (hk : k < s.cfg.sweepTicks) :
    snapshotEdge t = true ↔ k + 1 = s.cfg.sweepTicks := by
  have hle : s.cfg.blankTicks ≤ s.cfg.sweepTicks := by
    simp only [Config.sweepTicks, Config.positionTicks]; omega
  have hpos : 0 < s.cfg.blankTicks := (phaseTicks_bounds hc .blank).1
  rw [snapshotEdge_iff_sweepCycle, h.cfg, h.cycle]
  by_cases hwrap : s.cfg.blankTicks + k < s.cfg.sweepTicks
  · rw [Nat.mod_eq_of_lt hwrap]
    omega
  · rw [Nat.mod_eq_sub_mod (by omega), Nat.mod_eq_of_lt (by omega)]
    omega

/-- A cycle of MPX proper is one cycle more since the snapshot edge. -/
theorem SinceSnapshot.step {s t u : State} {k : Nat} (hc : s.cfg.legal = true) (h : SinceSnapshot s k t)
    (hp : plainCycle t) (hs : step t = .next u) : SinceSnapshot s (k + 1) u where
  cfg := (step_cfg hs).trans h.cfg
  inv := h.inv.step_plain hp hs
  cycle := by rw [sweepCycle_step hp h.inv hs, h.cycle, h.cfg, Nat.mod_add_mod, Nat.add_assoc]
  snap hk := by
    have hno : ¬ snapshotEdge t = true := by rw [h.snapshotEdge_iff hc (by omega)]; omega
    rw [snap_step hp hs, if_neg hno, h.snap (by omega)]

/-- Settles O45: SNAP is kept along the run, since no cycle of it before the T_SWEEP-th ends in a snapshot
edge, and that one does. -/
theorem oneFrameIsShownThroughoutASweep : Obligations.OneFrameIsShownThroughoutASweep := by
  rintro s ⟨hc, hinv⟩ hr hphase hcnt hidx
  have hrun (n : Nat) (hq : quietFor n s) : ∃ t, RunsTo n s t ∧ SinceSnapshot s n t ∧ t.resetDone = true := by
    obtain ⟨t, ht, hsince, -, hdone⟩ := run_quiet (P := SinceSnapshot s) (fun _ _ _ h => h.step hc) n 0 s hc hr hq
      (.start (hinv hr) hphase hcnt hidx)
    exact ⟨t, ht, Nat.zero_add n ▸ hsince, hdone⟩
  constructor
  · intro n hn hq
    obtain ⟨t, ht, hsince, -⟩ := hrun n hq
    exact ⟨t, ht, hsince.snap hn⟩
  · intro hq
    have hsplit : s.cfg.sweepTicks - 1 + 1 = s.cfg.sweepTicks := Nat.sub_add_cancel (sweepTicks_pos hc)
    obtain ⟨u, hu, hsince, hdone⟩ := hrun _ (quietFor_le (Nat.sub_le _ 1) s hq)
    have hlegal : u.cfg.legal = true := hsince.cfg ▸ hc
    have hp : plainCycle u :=
      plainCycle_of_quietFor 0 u hlegal hdone (quietFor_runsTo hc hr (hsplit ▸ hq) hu)
    obtain ⟨t, ht⟩ := step_next u hlegal
    have hedge : snapshotEdge u = true := (hsince.snapshotEdge_iff hc (by omega)).2 hsplit
    have hlast : RunsTo s.cfg.sweepTicks s t := hsplit ▸ hu.trans (RunsTo.head ht ((runsTo_zero t t).2 rfl))
    exact ⟨u, t, hu, hlast, step_snapshotEdge hp ht hedge⟩

end Sys2Proof.Machine
end

section
/-! The sequence of the scan (42 R141): PHASE, CNT and IDX move by themselves, so after any number of
cycles under any quiet host they stand where the count of the cycles puts them. -/
open Sys2Proof Sys2Proof.Machine

namespace Sys2Proof.Machine

/-! ### The scan runs on its own (42 R140) -/

/-- The scan of a state, in a machine that is otherwise right after reset: what is proved of the scan under
the invariant is so proved of a state whose other elements do not meet it. -/
def scanAlone (s : State) : State :=
  { State.resetWith s.cfg [] with phase := s.phase, cnt := s.cnt, idx := s.idx }

/-- TICK moves the scan the same in either machine. -/
theorem scanAlone_tick (s : State) : scanAlone (tick s) = tick (scanAlone s) := by
  have hends : phaseEnds (scanAlone s) = phaseEnds s := rfl
  unfold tick scanStep
  rw [hends]
  cases hp : s.phase with
  | blank => cases phaseEnds s <;> simp [scanAlone, State.resetWith, pulseStep, hp]
  | drive => cases phaseEnds s <;> simp [scanAlone, State.resetWith, pulseStep, hp]

/-- And so does a cycle of MPX proper, whatever is presented. -/
theorem scanAlone_step {s t : State} (hp : plainCycle s) (hs : step s = .next t) :
    scanAlone t = tick (scanAlone s) := by
  obtain ⟨hphase, hcnt, hidx, -, hcfg, -, -⟩ := step_plain_scan s t hp hs
  rw [← scanAlone_tick]
  simp only [scanAlone, hphase, hcnt, hidx, hcfg, tick_cfg]

/-! ### Where the count of the cycles puts the scan -/

/-- The state `n` cycles after the start of a sweep. -/
structure InSweep (c : Config) (n : Nat) (t : State) : Prop where
  cfg : t.cfg = c
  inv : ReachableInv (scanAlone t)
  cycle : sweepCycle t = n % c.sweepTicks

theorem InSweep.start {s : State} (hc : s.cfg.legal = true) (hp : s.phase = .blank) (hn : s.cnt = 0)
    (hi : s.idx = 0) : InSweep s.cfg 0 s where
  cfg := rfl
  inv := by
    have halone : scanAlone s = State.resetWith s.cfg [] := by simp [scanAlone, State.resetWith, hp, hn, hi]
    rw [halone]
    exact resetWith_reachableInv hc []
  cycle := by simp [sweepCycle, hp, hn, hi, phaseStart]

theorem InSweep.step {c : Config} {n : Nat} {s t : State} (h : InSweep c n s) (hp : plainCycle s)
    (hs : step s = .next t) : InSweep c (n + 1) t where
  cfg := (step_cfg hs).trans h.cfg
  inv := scanAlone_step hp hs ▸ h.inv.tick hp.1
  cycle :=
    calc sweepCycle t
        = sweepCycle (scanAlone t) := rfl
      _ = sweepCycle (tick (scanAlone s)) := by rw [scanAlone_step hp hs]
      _ = (sweepCycle s + 1) % s.cfg.sweepTicks := sweepCycle_tick hp.1 h.inv
      _ = (n + 1) % c.sweepTicks := by rw [h.cycle, h.cfg, Nat.mod_add_mod]

/-- The position is the whole positions gone by, and the cycle within the position is the rest. -/
theorem sweepCycle_div_mod {s : State} (h : ReachableInv (scanAlone s)) :
    sweepCycle s / s.cfg.positionTicks = s.idx.toNat ∧
      sweepCycle s % s.cfg.positionTicks = phaseStart s.cfg s.phase + s.cnt.toNat := by
  have hlt : phaseStart s.cfg s.phase + s.cnt.toNat < s.cfg.positionTicks :=
    (Nat.add_lt_add_left h.cnt_lt _).trans_le (phaseStart_add_phaseTicks_le s.cfg s.phase)
  refine (Nat.div_mod_unique (Nat.zero_lt_of_lt hlt)).2 ⟨?_, hlt⟩
  rw [sweepCycle, Nat.mul_comm, Nat.add_comm]

theorem InSweep.idx_le {c : Config} {n : Nat} {t : State} (h : InSweep c n t) : t.idx.toNat ≤ 4 :=
  h.inv.idx_le

theorem InSweep.idx {c : Config} {n : Nat} {t : State} (h : InSweep c n t) :
    t.idx.toNat = n / c.positionTicks % 5 := by
  obtain ⟨hdiv, -⟩ := sweepCycle_div_mod h.inv
  rw [← hdiv, h.cycle, h.cfg, Config.sweepTicks, Nat.mod_mul_left_div_self]

theorem InSweep.mod {c : Config} {n : Nat} {t : State} (h : InSweep c n t) :
    n % c.positionTicks = phaseStart c t.phase + t.cnt.toNat := by
  obtain ⟨-, hmod⟩ := sweepCycle_div_mod h.inv
  rw [h.cycle, h.cfg, Config.sweepTicks, Nat.mod_mul_left_mod] at hmod
  exact hmod

/-- A position begins with its BLANK_TICKS cycles of BLANK, and the rest of it is DRIVE. -/
theorem InSweep.phase_eq {c : Config} {n : Nat} {t : State} (h : InSweep c n t) :
    t.phase = if n % c.positionTicks < c.blankTicks then .blank else .drive := by
  rw [h.mod]
  cases hp : t.phase with
  | blank =>
    have hlt : t.cnt.toNat < c.blankTicks := h.cfg ▸ h.inv.cnt_blank hp
    rw [phaseStart, Nat.zero_add, if_pos hlt]
  | drive => rw [phaseStart, if_neg (Nat.not_lt.2 (Nat.le_add_right _ _))]

/-- Under a quiet host the run exists, and the scan stands where the count puts it. -/
theorem run_inSweep {n : Nat} {s : State} (hc : s.cfg.legal = true) (hr : s.resetDone = true)
    (hp : s.phase = .blank) (hn : s.cnt = 0) (hi : s.idx = 0) (hq : quietFor n s) :
    ∃ t, RunsTo n s t ∧ InSweep s.cfg n t ∧ t.resetDone = true := by
  obtain ⟨t, ht, hsweep, -, hdone⟩ :=
    run_quiet (P := InSweep s.cfg) (fun _ _ _ h => h.step) n 0 s hc hr hq (.start hc hp hn hi)
  exact ⟨t, ht, Nat.zero_add n ▸ hsweep, hdone⟩

/-- Settles O43: the cycle of the sweep, counted along the run, divided by the length of a position. -/
theorem scanStandsWhereTheSequencePutsIt : Obligations.ScanStandsWhereTheSequencePutsIt := by
  intro n s hc hr hp hn hi hq
  obtain ⟨t, ht, hsweep, -⟩ := run_inSweep hc hr hp hn hi hq
  have hphase := hsweep.phase_eq
  have hmod := hsweep.mod
  unfold Config.positionTicks at hphase hmod
  refine ⟨t, ht, hsweep.idx, fun hblank => ?_, fun hdrive => ?_⟩
  · rw [if_pos hblank] at hphase
    rw [hphase, phaseStart] at hmod
    exact ⟨hphase, by omega⟩
  · rw [if_neg (Nat.not_lt.2 hdrive)] at hphase
    rw [hphase, phaseStart] at hmod
    exact ⟨hphase, by omega⟩

end Sys2Proof.Machine
end

section
/-! The output lines of a cycle (42 R144 to R148): what the digit selects and the segments are in each phase,
and over which cycles of a sweep each digit is selected (42 R150). -/
open Sys2Proof Sys2Proof.Machine

namespace Sys2Proof.Machine

/-! ### The lines after the first reset edge -/

/-- After a reset edge the lines are what the state says, no free values. -/
theorem logicalOutputs_of_resetDone {s : State} (h : s.resetDone = true) :
    logicalOutputs s = { dsel := dselOut s, seg := segOut s, trig := trigOut s, pwr := s.pwr } := if_pos h

theorem dselOut_blank {s : State} (hp : s.phase = .blank) : dselOut s = 0 := by
  rw [dselOut, hp]

theorem segOut_blank {s : State} (hp : s.phase = .blank) : segOut s = 0 := by
  rw [segOut, hp]

theorem dselOut_drive {s : State} (hp : s.phase = .drive) (hi : s.idx.toNat ≤ 4) :
    dselOut s = 1#5 <<< s.idx.toNat := by
  rw [dselOut, hp]
  exact if_pos (Nat.lt_succ_of_le hi)

/-- One digit select at a time: line k is active exactly in DRIVE of position k (42 R145). -/
theorem dselOut_getLsbD {s : State} (hi : s.idx.toNat ≤ 4) {k : Nat} (hk : k < 5) :
    (dselOut s).getLsbD k = true ↔ s.phase = .drive ∧ k = s.idx.toNat := by
  cases hp : s.phase with
  | blank => simp [dselOut_blank hp]
  | drive =>
    rw [dselOut_drive hp hi]
    simp [hk]
    omega

/-- PULSE_BUSY drives the trigger output (43 R182). -/
theorem trigOut_eq (s : State) : trigOut s = decide (s.pulseRem ≠ 0) := by
  rw [Bool.eq_iff_iff, decide_eq_true_iff]
  exact pulseBusy_true_iff s

/-- A slot of a frame with valid codes has a pattern. -/
theorem exists_rom_of_frameValid {c : Config} {f : Frame} (h : frameValid c f = true) {k : Nat} (hk : k < 5) :
    ∃ p, c.rom (glyphOf f k) = some p :=
  (c.validGlyph_iff _).1 (List.all_eq_true.1 h k (List.mem_range.2 hk))

theorem segOut_drive {s : State} (hp : s.phase = .drive) (hi : s.idx.toNat ≤ 4) {p : Pattern}
    (hrom : s.cfg.rom (glyphOf s.snap s.idx.toNat) = some p) :
    segOut s = withDp p (dpOf s.snap s.idx.toNat) := by
  rw [segOut, hp, patternOf, hrom]
  exact if_pos (Nat.lt_succ_of_le hi)

/-- The decimal-point flag is segment 7, on top of what the pattern has there (42 R146). -/
theorem withDp_getLsbD (p : Pattern) (dp : Bool) {j : Nat} (hj : j < 9) :
    (withDp p dp).getLsbD j = if j = 7 then p.getLsbD 7 || dp else p.getLsbD j := by
  have hflag : ∀ j, j < 9 → (0x080#9).getLsbD j = decide (j = 7) := by decide
  rw [withDp, BitVec.getLsbD_or]
  cases dp with
  | false => simp; rintro rfl; rfl
  | true =>
    rw [if_pos rfl, hflag j hj]
    by_cases h7 : j = 7 <;> simp [h7]

/-! ### What the lines show -/

/-- Settles O39: both lines are 0 in BLANK. -/
theorem blankTurnsEveryOutputOff : Obligations.BlankTurnsEveryOutputOff := by
  intro s hr hp
  rw [logicalOutputs_of_resetDone hr, dselOut_blank hp, segOut_blank hp]
  exact ⟨fun k _ => BitVec.getLsbD_zero, fun j _ => BitVec.getLsbD_zero⟩

/-- Settles O40: the invariant gives a position and a valid code on display, so neither line is free. -/
theorem driveShowsTheSlotOfItsPosition : Obligations.DriveShowsTheSlotOfItsPosition := by
  rintro s ⟨-, hinv⟩ hr hp
  have hi := (hinv hr).idx_le
  obtain ⟨p, hrom⟩ := exists_rom_of_frameValid (hinv hr).snap_valid (Nat.lt_succ_of_le hi)
  rw [logicalOutputs_of_resetDone hr]
  refine ⟨fun k hk => ?_, p, hrom, fun j hj => ?_⟩
  · rw [Bool.eq_iff_iff, dselOut_getLsbD hi hk, decide_eq_true_iff]
    exact and_iff_right hp
  · rw [segOut_drive hp hi hrom]
    exact withDp_getLsbD p _ hj

/-- Settles O41: a pin level is its line's level or the complement, bit by bit. -/
theorem pinLevelsFollowThePolarities : Obligations.PinLevelsFollowThePolarities := by
  intro s
  refine ⟨fun j hj => ?_, fun k hk => ?_, rfl, rfl, fun hr => ?_⟩
  · cases hpol : s.cfg.segActiveLow <;> simp [pins, hpol, hj]
  · cases hpol : s.cfg.dselActiveHigh <;> simp [pins, hpol, hk]
  · rw [logicalOutputs_of_resetDone hr]
    exact ⟨trigOut_eq s, rfl⟩

/-- Under the invariant the lines are read off PHASE, IDX, SNAP, PULSE_REM and PWR (42 R147). -/
theorem logicalOutputs_congr {s t : State} (hs : ReachableInv s) (ht : ReachableInv t)
    (hrs : s.resetDone = true) (hrt : t.resetDone = true) (hcfg : s.cfg = t.cfg) (hphase : s.phase = t.phase)
    (hidx : s.idx = t.idx) (hsnap : s.snap = t.snap) (hpulse : s.pulseRem = t.pulseRem)
    (hpwr : s.pwr = t.pwr) : logicalOutputs s = logicalOutputs t := by
  have htrig : trigOut s = trigOut t := by rw [trigOut_eq, trigOut_eq, hpulse]
  rw [logicalOutputs_of_resetDone hrs, logicalOutputs_of_resetDone hrt, htrig, hpwr]
  cases hp : t.phase with
  | blank =>
    have hp' := hphase.trans hp
    rw [dselOut_blank hp, dselOut_blank hp', segOut_blank hp, segOut_blank hp']
  | drive =>
    have hp' := hphase.trans hp
    obtain ⟨p, hrom⟩ := exists_rom_of_frameValid ht.snap_valid (Nat.lt_succ_of_le ht.idx_le)
    have hrom' : s.cfg.rom (glyphOf s.snap s.idx.toNat) = some p := by rw [hcfg, hsnap, hidx, hrom]
    rw [dselOut_drive hp ht.idx_le, dselOut_drive hp' hs.idx_le, segOut_drive hp ht.idx_le hrom,
      segOut_drive hp' hs.idx_le hrom', hidx, hsnap]

/-- Settles O42: equal lines under one configuration are equal pins. -/
theorem pinsDependOnTheDisplayedStateOnly : Obligations.PinsDependOnTheDisplayedStateOnly := by
  rintro s t ⟨-, hs⟩ ⟨-, ht⟩ hrs hrt hcfg hphase hidx hsnap hpulse hpwr
  rw [pins, pins, hcfg, logicalOutputs_congr (hs hrs) (ht hrt) hrs hrt hcfg hphase hidx hsnap hpulse hpwr]

/-! ### When a digit is selected (42 R150) -/

/-- The cycles of DRIVE of position k, by the position and the rest. -/
theorem dwell_iff {b p n k : Nat} (hp : 0 < p) :
    (b ≤ n % p ∧ k = n / p) ↔ k * p + b ≤ n ∧ n < (k + 1) * p := by
  have hn := Nat.div_add_mod' n p
  constructor
  · rintro ⟨hmod, rfl⟩
    exact ⟨by omega, Nat.lt_mul_of_div_lt (Nat.lt_succ_self _) hp⟩
  · rintro ⟨hlo, hhi⟩
    obtain rfl : n / p = k := Nat.div_eq_of_lt_le (by omega) hhi
    exact ⟨by omega, rfl⟩

/-- Settles O44: line k is active in DRIVE of position k, which is where the count of the cycles puts the scan
in just that interval. -/
theorem eachDigitIsSelectedForExactlyItsDwell : Obligations.EachDigitIsSelectedForExactlyItsDwell := by
  intro n k s hc hr hp hn hi hlt hk hq
  obtain ⟨t, ht, hsweep, hdone⟩ := run_inSweep hc hr hp hn hi hq
  have hpos : 0 < s.cfg.positionTicks := by
    have := sweepTicks_pos hc
    unfold Config.sweepTicks at this
    omega
  have hidx : t.idx.toNat = n / s.cfg.positionTicks := by
    rw [hsweep.idx, Nat.mod_eq_of_lt ((Nat.div_lt_iff_lt_mul hpos).2 hlt)]
  have hdrive : t.phase = .drive ↔ s.cfg.blankTicks ≤ n % s.cfg.positionTicks := by
    rw [hsweep.phase_eq, ← Nat.not_lt]
    split <;> simp [*]
  refine ⟨t, ht, ?_⟩
  rw [logicalOutputs_of_resetDone hdone, dselOut_getLsbD hsweep.idx_le hk, hdrive, hidx]
  exact dwell_iff hpos

end Sys2Proof.Machine
end

section
/-! The scan and the host (42): an IDLE cycle is TICK (R142), no command changes the scan (R140) or SNAP but
at the snapshot edge (R143), and SCAN_RD reads the scan (R149). -/
open Sys2Proof Sys2Proof.Machine

namespace Sys2Proof.Machine

/-! ### One cycle -/

/-- An IDLE cycle is TICK, the host's entry taken off (30 R79). -/
theorem step_idle {s : State} (hc : s.cfg.legal = true) (hr : s.resetDone = true)
    (hn : hostNext s = .cycle false none) : step s = .next (tick (hostTaken s)) := by
  rw [step_eq s hc, hn]
  exact runCycle_idle (hostTaken s) hr

/-- A phase ends at CNT = its ticks less one, in the words of 42 R142. -/
theorem phaseEnds_iff_eq_pred {s : State} (hc : s.cfg.legal = true) :
    phaseEnds s = true ↔ s.cnt.toNat = phaseTicks s.cfg s.phase - 1 := by
  have := (phaseTicks_bounds hc s.phase).1
  rw [phaseEnds_iff]
  omega

/-- The snapshot edge, in the words of 42 R143. -/
theorem snapshotEdge_iff {s : State} (hc : s.cfg.legal = true) :
    snapshotEdge s = true ↔ s.phase = .blank ∧ s.cnt.toNat = s.cfg.blankTicks - 1 ∧ s.idx = 0 := by
  simp only [snapshotEdge, Bool.and_eq_true, beq_iff_eq, phaseEnds_iff_eq_pred hc, and_assoc]
  exact and_congr_right fun hp => by rw [hp, phaseTicks]

/-- A cycle that does not end BLANK of position 0 leaves SNAP to itself. -/
theorem tick_snap_of_ne {s : State} (h : ¬ snapshotEdge s = true) : (tick s).snap = s.snap := by
  rw [tick_snap, if_neg h]

/-- The count-down, in the words of 43 R181. -/
theorem pulseStep_eq_of_ne (r : BitVec 24) : pulseStep r = if r ≠ 0 then r - 1 else r := by
  rw [ite_not, pulseStep]
  split
  · rename_i h; exact h.symm
  · rfl

/-- Settles O8: TICK by the phase and by whether it ends, and its frame. -/
theorem idleCycleFollowsTheTickRule : Obligations.IdleCycleFollowsTheTickRule := by
  intro s hc hr hn
  refine ⟨step_idle hc hr hn, ?_⟩
  rintro _ rfl
  have hends := phaseEnds_iff_eq_pred hc
  have hsnap := snapshotEdge_iff hc
  rw [tick_hostTaken]
  refine ⟨fun hp hl => ?_, fun hp hl => ?_, fun hp hl => ?_, fun hp hl => ?_, pulseStep_eq_of_ne s.pulseRem,
    tick_frame s, tick_thresh s, tick_lastSample s, tick_latch s, tick_pulseCnt s, tick_pwr s, tick_err s,
    tick_cfg s, tick_resp s, (tick_resetDone s).trans hr, tick_draws s, congrArg List.tail (tick_host s)⟩
  · obtain ⟨hphase, hcnt, hidx⟩ := tick_blank_ends s hp (hends.2 (by rw [hp]; exact hl))
    have hedge : snapshotEdge s = true ↔ s.idx = 0 := by simp [hsnap, hp, hl]
    exact ⟨hphase, hcnt, hidx, by simp [tick_snap, hedge]⟩
  · obtain ⟨hphase, hcnt, hidx⟩ := tick_goes_on s (Bool.eq_false_iff.2 (mt hends.1 (by rw [hp]; exact hl)))
    exact ⟨hphase.trans hp, hcnt, hidx, tick_snap_of_ne (by simp [hsnap, hl])⟩
  · obtain ⟨hphase, hcnt, hidx⟩ := tick_drive_ends s hp (hends.2 (by rw [hp]; exact hl))
    exact ⟨hphase, hcnt, hidx, tick_snap_of_ne (by simp [hsnap, hp])⟩
  · obtain ⟨hphase, hcnt, hidx⟩ := tick_goes_on s (Bool.eq_false_iff.2 (mt hends.1 (by rw [hp]; exact hl)))
    exact ⟨hphase.trans hp, hcnt, hidx, tick_snap_of_ne (by simp [hsnap, hp])⟩

/-- Settles O9: every command leaves the scan to TICK. -/
theorem hostCannotChangeTheScan : Obligations.HostCannotChangeTheScan := by
  intro i s
  obtain ⟨t, ht, hscan⟩ := exec_next i s
  exact ⟨t, ht, hscan.phase, hscan.cnt, hscan.idx, hscan.snap⟩

/-- Settles O29: SNAP after a cycle of MPX proper is decided by the snapshot edge. -/
theorem snapshotTakesThePreEdgeFrame : Obligations.SnapshotTakesThePreEdgeFrame := by
  intro s hp
  obtain ⟨t, ht⟩ := step_next s hp.1
  refine ⟨t, ht, ?_⟩
  rw [← snapshotEdge_iff hp.1, snap_step hp ht]
  exact ⟨fun h => if_pos h, fun h => if_neg h⟩

/-! ### SCAN_RD (42 R149) -/

theorem scanWord_idx (s : State) : (scanWord s).extractLsb' 0 3 = s.idx :=
  BitVec.extractLsb'_append_eq_right

theorem scanWord_phase (s : State) : (scanWord s).getLsbD 3 = decide (s.phase = .drive) := by
  rw [scanWord, BitVec.getLsbD_append, BitVec.getLsbD_append]
  cases hp : s.phase <;> rfl

/-- The bits above IDX and PHASE are the four zeros and CNT. -/
theorem scanWord_extractLsb'_of_le (s : State) {start len : Nat} (h : 4 ≤ start) :
    (scanWord s).extractLsb' start len = (s.cnt ++ 0#4).extractLsb' (start - 4) len := by
  rw [scanWord, BitVec.extractLsb'_append_eq_of_le (by omega), BitVec.extractLsb'_append_eq_of_le (by omega),
    Nat.sub_sub]

theorem scanWord_reserved (s : State) : (scanWord s).extractLsb' 4 4 = 0#4 :=
  (scanWord_extractLsb'_of_le s (Nat.le_refl 4)).trans BitVec.extractLsb'_append_eq_right

theorem scanWord_cnt (s : State) : (scanWord s).extractLsb' 8 24 = s.cnt :=
  (scanWord_extractLsb'_of_le s (by decide)).trans BitVec.extractLsb'_append_eq_left

/-- Settles O13: a row of the table, and the word by its fields. -/
theorem scanReadWordByFields : Obligations.ScanReadWordByFields := by
  intro s w
  obtain ⟨-, -, -, -, -, -, -, -, -, -, hdecode, -⟩ := legalCommandsDecodeByTheTable w 0
  exact ⟨hdecode, scanWord s, respondData_eq s (scanWord s), scanWord_idx s, scanWord_phase s,
    scanWord_reserved s, scanWord_cnt s⟩

end Sys2Proof.Machine
end

section
/-! A written frame is on display within a sweep (42 R153): from the cycle after an accepted FRAME_WR the scan
comes to a snapshot edge within T_SWEEP cycles, and FRAME keeps the written frame up to it. -/
open Sys2Proof Sys2Proof.Machine

namespace Sys2Proof.Machine

/-! ### FRAME around a FRAME_WR -/

/-- An accepted FRAME_WR gives FRAME its frame (41 R121). -/
theorem frame_step_of_presentsFrameWr {s t : State} {w : Word} (hp : plainCycle s) (hw : presentsFrameWr s w)
    (hl : frameLegal s.cfg w = true) (hs : step s = .next t) : t.frame = frameField w := by
  obtain ⟨x, hx, hd⟩ := hw
  obtain ⟨t', u, hs', hend, hu⟩ := step_plain s hp
  obtain rfl : t = t' := Host.Outcome.next.inj (hs.symm.trans hs')
  have hframe : t.frame = u.frame := by
    obtain rfl | ⟨-, -, rfl⟩ := hu <;> rfl
  obtain ⟨hnone, -⟩ | ⟨y, i, hy, hi, he⟩ := hend
  · rw [hnone] at hx
    cases hx
  · obtain rfl : x = y := Option.some.inj (hx.symm.trans hy)
    obtain rfl : i = .frameWr w := Except.ok.inj (hi.symm.trans hd)
    obtain rfl := Host.Outcome.next.inj (he.symm.trans (exec_frameWr_legal hl))
    exact hframe

/-- A FRAME_WR is one entry of the host's list, and its cycle takes it off. -/
theorem host_step_of_presentsFrameWr {s t : State} {w : Word} (hp : plainCycle s) (hw : presentsFrameWr s w)
    (hs : step s = .next t) : t.host = s.host.tail := by
  obtain htail | ⟨hn, -⟩ := step_plain_host s t hp hs
  · exact htail
  · obtain ⟨x, hx, hd⟩ := hw
    rw [hn] at hx
    obtain rfl := Option.some.inj hx
    rw [decodeTxn_statusRead] at hd
    cases hd

/-- A host that presents no FRAME_WR in its next entries presents none in the next cycle. -/
theorem not_presentsFrameWr {n : Nat} {s : State} (h : ∀ op ∈ s.host.take (n + 1), presentsNoFrameWr op)
    (w : Word) : ¬ presentsFrameWr s w := by
  rintro ⟨x, hx, hd⟩
  cases hh : s.host with
  | nil => simp [hostNext, hh, HostOp.presents] at hx
  | cons op rest =>
    simp only [hostNext, hh, List.headD_cons] at hx
    exact h op (by simp [hh]) x w hx hd

/-! ### Up to the snapshot edge -/

/-- `k` cycles after the cycle `c0` of the sweep, in which FRAME held `f`, with `m` cycles to go in which no
FRAME_WR is presented: FRAME holds `f` still. -/
structure FrameWaits (c : Config) (c0 m : Nat) (f : Frame) (k : Nat) (t : State) : Prop where
  cfg : t.cfg = c
  inv : ReachableInv t
  cycle : sweepCycle t = (c0 + k) % c.sweepTicks
  noWrite : ∀ op ∈ t.host.take (m - k), presentsNoFrameWr op
  frame : k ≤ m → t.frame = f

theorem FrameWaits.start {m : Nat} {s : State} (h : ReachableInv s)
    (hno : ∀ op ∈ s.host.take m, presentsNoFrameWr op) :
    FrameWaits s.cfg (sweepCycle s) m s.frame 0 s where
  cfg := rfl
  inv := h
  cycle := (Nat.mod_eq_of_lt (sweepCycle_lt h)).symm
  noWrite := hno
  frame _ := rfl

theorem FrameWaits.step {c : Config} {c0 m k : Nat} {f : Frame} {s t : State} (h : FrameWaits c c0 m f k s)
    (hp : plainCycle s) (hs : step s = .next t) : FrameWaits c c0 m f (k + 1) t := by
  refine ⟨(step_cfg hs).trans h.cfg, h.inv.step_plain hp hs, ?_, ?_, fun hk => ?_⟩
  · rw [sweepCycle_step hp h.inv hs, h.cycle, h.cfg, Nat.mod_add_mod, Nat.add_assoc]
  · obtain hlt | hle := Nat.lt_or_ge k m
    · have hno := h.noWrite
      rw [show m - k = m - (k + 1) + 1 by omega] at hno
      exact host_take_step _ s t hp hs hno
    · rw [show m - (k + 1) = 0 by omega]
      simp
  · have hno := h.noWrite
    rw [show m - k = m - (k + 1) + 1 by omega] at hno
    obtain hkept | ⟨w, hw, -⟩ := frame_step hp hs
    · exact hkept.trans (h.frame (by omega))
    · exact absurd hw (not_presentsFrameWr hno w)

/-- From any cycle of a sweep the last BLANK cycle of position 0 comes within T_SWEEP cycles. -/
theorem exists_cycles_to_snapshotEdge {c : Config} (hc : c.legal = true) {c0 : Nat} (h0 : c0 < c.sweepTicks) :
    ∃ n, n < c.sweepTicks ∧ (c0 + n) % c.sweepTicks + 1 = c.blankTicks := by
  have hpos : 0 < c.blankTicks := (phaseTicks_bounds hc .blank).1
  have hle : c.blankTicks ≤ c.sweepTicks := by
    simp only [Config.sweepTicks, Config.positionTicks]; omega
  obtain hlt | hge := Nat.lt_or_ge c0 c.blankTicks
  · refine ⟨c.blankTicks - 1 - c0, by omega, ?_⟩
    rw [Nat.mod_eq_of_lt (by omega)]
    omega
  · refine ⟨c.sweepTicks + (c.blankTicks - 1) - c0, by omega, ?_⟩
    rw [show c0 + (c.sweepTicks + (c.blankTicks - 1) - c0) = c.sweepTicks + (c.blankTicks - 1) by omega,
      Nat.add_mod_left, Nat.mod_eq_of_lt (by omega)]
    omega

/-- FRAME is on display within T_SWEEP cycles, if no FRAME_WR is presented in them (42 R153). -/
theorem frame_displayed_within_sweep {s : State} (hc : s.cfg.legal = true) (hr : s.resetDone = true)
    (h : ReachableInv s) (hq : quietFor s.cfg.sweepTicks s)
    (hno : ∀ op ∈ s.host.take s.cfg.sweepTicks, presentsNoFrameWr op) :
    ∃ m t, 1 ≤ m ∧ m ≤ s.cfg.sweepTicks ∧ RunsTo m s t ∧
      t.snap = s.frame ∧ t.phase = .drive ∧ t.cnt = 0 ∧ t.idx = 0 := by
  obtain ⟨n, hn, hcyc⟩ := exists_cycles_to_snapshotEdge hc (sweepCycle_lt h)
  have hq' : quietFor (n + 1) s := quietFor_le hn s hq
  obtain ⟨u, hu, hwaits, hcfg, hdone⟩ := run_quiet (fun _ _ _ h => h.step) n 0 s hc hr
    (quietFor_le (Nat.le_succ n) s hq') (FrameWaits.start h hno)
  rw [Nat.zero_add] at hwaits
  have hlegal : u.cfg.legal = true := hcfg ▸ hc
  have hp : plainCycle u := plainCycle_of_quietFor 0 u hlegal hdone (quietFor_runsTo hc hr hq' hu)
  have hedge : snapshotEdge u = true := by
    rw [snapshotEdge_iff_sweepCycle, hwaits.cycle, hcfg]
    exact hcyc
  obtain ⟨t, ht⟩ := step_next u hlegal
  obtain ⟨hsnap, hshown⟩ := step_snapshotEdge hp ht hedge
  exact ⟨n + 1, t, Nat.le_add_left 1 n, hn, hu.trans (RunsTo.head ht ((runsTo_zero t t).2 rfl)),
    hsnap.trans (hwaits.frame hn.le), hshown⟩

/-- Settles O46: the write's cycle, and then the cycles up to the snapshot edge. -/
theorem writtenFrameIsDisplayedWithinASweep : Obligations.WrittenFrameIsDisplayedWithinASweep := by
  rintro s w ⟨hc, hinv⟩ hp hw hl hq hno
  obtain ⟨t, ht⟩ := step_next s hc
  obtain ⟨-, -, -, -, hcfg, hdone, -⟩ := step_plain_scan s t hp ht
  have hhost := host_step_of_presentsFrameWr hp hw ht
  have hframe := frame_step_of_presentsFrameWr hp hw hl ht
  rw [Nat.add_comm] at hq
  have hqt : quietFor t.cfg.sweepTicks t := hcfg ▸ quietFor_step _ s t hp ht hq
  have hnot : ∀ op ∈ t.host.take t.cfg.sweepTicks, presentsNoFrameWr op := by rwa [hhost, hcfg]
  obtain ⟨m, v, hm, hle, hrun, hsnap, hshown⟩ := frame_displayed_within_sweep (hcfg ▸ hc) hdone
    ((hinv hp.2.1).step_plain hp ht) hqt hnot
  refine ⟨m, v, hm, hcfg ▸ hle, ?_, hsnap.trans hframe, hshown⟩
  rw [Nat.add_comm]
  exact RunsTo.head ht hrun

end Sys2Proof.Machine
end

section
/-! The threshold latch in one cycle (43): what its commands answer (R171 to R178), and that judging an
accepted sample is all that moves LATCHED and PULSE_CNT and starts a pulse (R177, R181, R184). -/
open Sys2Proof Sys2Proof.Machine

namespace Sys2Proof.Machine

/-! ### Reads -/

/-- The word of CTRL_RD is PWR in bit 0 (44 R202). -/
theorem ctrlWord_eq (s : State) : ctrlWord s = if s.pwr then 1 else 0 := by
  rw [ctrlWord]
  cases s.pwr <;> rfl

/-- The reserved bits of a THRESH word, field by field (10 R27). -/
theorem threshReservedClear_iff (w : Word) :
    threshReservedClear w = true ↔ w.extractLsb' 12 4 = 0#4 ∧ w.extractLsb' 28 4 = 0#4 := by
  simp only [threshReservedClear, Bool.and_eq_true, beq_iff_eq]

/-- Settles O11: three rows of the table, three reads, and the reserved bits by the invariant. -/
theorem threshSampleAndCtrlReads : Obligations.ThreshSampleAndCtrlReads := by
  intro s w
  obtain ⟨-, -, hthresh, -, hsample, -, hctrl, -⟩ := legalCommandsDecodeByTheTable w 0
  refine ⟨hthresh, hsample, hctrl, respondData_eq s s.thresh, ?_, respondData_eq s (sampleWord s), ?_⟩
  · rintro ⟨-, hinv⟩ hr
    exact (threshReservedClear_iff s.thresh).1 (hinv hr).thresh_reserved
  · rw [← ctrlWord_eq]
    exact respondData_eq s (ctrlWord s)

/-! ### THRESH_WR (43 R171, R172) -/

theorem exec_threshWr_legal {s : State} {w : Word} (hl : threshLegal w = true) :
    exec (.threshWr w) s = .next { tick s with thresh := w, resp := some .okay } := if_pos hl

/-- ERR_THRESH is bit 1 of ERR (10 R33). -/
theorem exec_threshWr_illegal {s : State} {w : Word} (hl : ¬ threshLegal w = true) :
    exec (.threshWr w) s = .next { tick s with err := s.err ||| 0b00010#5, resp := some .slverr } := by
  have h : exec (.threshWr w) s = reject s .errThresh := if_neg hl
  rw [h, reject_eq, setErr, mask_errThresh]

/-- Settles O17: the conditions are `threshLegal`. -/
theorem threshWriteAccepted : Obligations.ThreshWriteAccepted := by
  intro s w
  obtain ⟨-, -, -, hdecode, -⟩ := legalCommandsDecodeByTheTable w 0
  exact ⟨hdecode, fun hlow hhigh hband => exec_threshWr_legal ((threshLegal_iff w).2 ⟨hlow, hhigh, hband⟩)⟩

/-- Settles O18: each of the three causes breaks `threshLegal`. -/
theorem threshWriteRejected : Obligations.ThreshWriteRejected := by
  intro s w hcause
  refine exec_threshWr_illegal fun hl => ?_
  obtain ⟨hlow, hhigh, hband⟩ := (threshLegal_iff w).1 hl
  obtain hbad | hbad | hbad := hcause
  · exact hbad hlow
  · exact hbad hhigh
  · exact Nat.not_lt.2 hbad hband

/-! ### SAMPLE_WR (43 R174 to R176) -/

/-- A malformed sample, whether a pulse is active or not; ERR_SAMPLE is bit 2 of ERR (10 R33). -/
theorem exec_sampleWr_malformed {s : State} {w : Word} (hl : w.extractLsb' 12 20 ≠ 0#20) :
    exec (.sampleWr w) s = .next { tick s with err := s.err ||| 0b00100#5, resp := some .slverr } := by
  have h : exec (.sampleWr w) s = reject s .errSample := if_neg (mt (sampleLegal_iff w).1 hl)
  rw [h, reject_eq, setErr, mask_errSample]

theorem exec_sampleWr_busy {s : State} {w : Word} (hl : w.extractLsb' 12 20 = 0#20) (hb : s.pulseRem ≠ 0) :
    exec (.sampleWr w) s = .next (dropSample s) :=
  (if_pos ((sampleLegal_iff w).2 hl)).trans (if_pos ((pulseBusy_true_iff s).2 hb))

theorem exec_sampleWr_accepted {s : State} {w : Word} (hl : w.extractLsb' 12 20 = 0#20) (hb : s.pulseRem = 0) :
    exec (.sampleWr w) s = .next (acceptSample (w.extractLsb' 0 12) s) :=
  (if_pos ((sampleLegal_iff w).2 hl)).trans (if_neg (by rw [(pulseBusy_false_iff s).2 hb]; decide))

/-- Settles O19: the malformed-sample check comes before the busy check. -/
theorem malformedSampleRejected : Obligations.MalformedSampleRejected :=
  fun _ _ => exec_sampleWr_malformed

/-- Settles O20: a busy machine drops the sample; SMP_DROP is bit 3 of ERR (10 R33). -/
theorem sampleDuringPulseDropped : Obligations.SampleDuringPulseDropped := by
  intro s w hl hb
  rw [exec_sampleWr_busy hl hb, dropSample, setErr, mask_smpDrop]

/-! ### The judgement (43 R177) -/

theorem judge_idle_iff {thresh : Word} {x : Sample} :
    judge .idle thresh x = .latched ↔ (thresh.extractLsb' 16 12).toNat < x.toNat := by
  rw [← exceedsTrigger_iff, judge]
  split <;> simp [*]

theorem judge_latched_iff {thresh : Word} {x : Sample} :
    judge .latched thresh x = .idle ↔ x.toNat < (thresh.extractLsb' 0 12).toNat := by
  rw [← belowReset_iff, judge]
  split <;> simp [*]

theorem Latch.ne_latched_iff {l : Latch} : l ≠ .latched ↔ l = .idle := by
  cases l <;> simp

theorem Latch.ne_idle_iff {l : Latch} : l ≠ .idle ↔ l = .latched := by
  cases l <;> simp

/-- A pulse starts exactly with a transition from IDLE to LATCHED (43 R177, first row). -/
theorem triggers_iff {l : Latch} {thresh : Word} {x : Sample} :
    triggers l thresh x = true ↔ l = .idle ∧ judge l thresh x = .latched := by
  cases l with
  | latched => simp [triggers]
  | idle => simp [triggers, judge]

/-- A legal PULSE_TICKS fits PULSE_REM (00 R7, 10 R31). -/
theorem toNat_pulseTicks {c : Config} (hc : c.legal = true) :
    (BitVec.ofNat 24 c.pulseTicks).toNat = c.pulseTicks := by
  obtain ⟨-, -, -, -, -, -, hle, -⟩ := c.legal_iff.1 hc
  exact Nat.mod_eq_of_lt (by omega)

/-- Settles O21: the four rows, by LATCHED and by the comparison that LATCHED asks for. -/
theorem acceptedSampleJudged : Obligations.AcceptedSampleJudged := by
  intro s w hc hl hb
  obtain ⟨-, -, -, -, -, hdecode, -⟩ := legalCommandsDecodeByTheTable w 0
  refine ⟨hdecode, acceptSample (w.extractLsb' 0 12) s, exec_sampleWr_accepted hl hb, ?_, ?_, ?_, ?_⟩
  · intro hs hx
    have hj := judge_idle_iff.2 hx
    have hf := triggers_iff.2 ⟨rfl, hj⟩
    exact ⟨by simp [acceptSample, hs, hj, hf], by simpa [acceptSample, hs, hf] using toNat_pulseTicks hc⟩
  · intro hs hx
    have hj := Latch.ne_latched_iff.1 (mt judge_idle_iff.1 (Nat.not_lt.2 hx))
    have hf : triggers .idle s.thresh (w.extractLsb' 0 12) = false := by
      simp [Bool.eq_false_iff, triggers_iff, hj]
    simp [acceptSample, hs, hj, hf]
  · intro hs hx
    have hj := judge_latched_iff.2 hx
    simp [acceptSample, hs, hj, triggers]
  · intro hs hx
    have hj := Latch.ne_idle_iff.1 (mt judge_latched_iff.1 (Nat.not_lt.2 hx))
    simp [acceptSample, hs, hj, triggers]

/-! ### One cycle of MPX proper -/

/-- A cycle of MPX proper ends as the presented command or TICK does, up to the host's list. -/
theorem step_ends {s t : State} (hp : plainCycle s) (hs : step s = .next t) :
    ∃ u, cycleEndsIn (hostNext s) (hostTaken s) u ∧ t = { u with host := t.host } := by
  obtain ⟨t', u, hs', hend, hu⟩ := step_plain s hp
  obtain rfl : t = t' := Host.Outcome.next.inj (hs.symm.trans hs')
  refine ⟨u, hend, ?_⟩
  obtain rfl | ⟨-, -, rfl⟩ := hu <;> rfl

/-- A judged sample decides LATCHED, and with it the pulse. -/
theorem step_judged {s t : State} {x : Sample} (hp : plainCycle s) (hs : step s = .next t)
    (hj : judgesSample s x) :
    t.latch = judge s.latch s.thresh x ∧
      t.pulseRem = (if triggers s.latch s.thresh x then BitVec.ofNat 24 s.cfg.pulseTicks
        else pulseStep s.pulseRem) ∧
      t.pulseCnt = if triggers s.latch s.thresh x then s.pulseCnt + 1 else s.pulseCnt := by
  obtain ⟨y, w, hy, hd, hl, hb, rfl⟩ := hj
  obtain ⟨u, hend, ht⟩ := step_ends hp hs
  obtain ⟨hnone, -⟩ | ⟨y', i, hy', hi, he⟩ := hend
  · simp [hnone] at hy
  · obtain rfl : y = y' := Option.some.inj (hy.symm.trans hy')
    obtain rfl : i = .sampleWr w := Except.ok.inj (hi.symm.trans hd)
    obtain rfl := Host.Outcome.next.inj (he.symm.trans (exec_sampleWr_accepted hl hb))
    exact ⟨congrArg State.latch ht, congrArg State.pulseRem ht, congrArg State.pulseCnt ht⟩

/-- Where no sample is judged, LATCHED and PULSE_CNT stay and PULSE_REM counts down. -/
theorem step_not_judged {s t : State} (hp : plainCycle s) (hs : step s = .next t)
    (hj : ¬ ∃ x, judgesSample s x) :
    t.latch = s.latch ∧ t.pulseRem = pulseStep s.pulseRem ∧ t.pulseCnt = s.pulseCnt := by
  obtain ⟨u, hend, ht⟩ := step_ends hp hs
  have hu : u.latch = s.latch ∧ u.pulseRem = pulseStep s.pulseRem ∧ u.pulseCnt = s.pulseCnt := by
    obtain ⟨-, rfl⟩ | ⟨y, i, hy, hd, he⟩ := hend
    · exact ⟨tick_latch _, rfl, tick_pulseCnt _⟩
    · obtain ⟨hlatch, hcnt, hrem, -⟩ | ⟨w, rfl, hl, hb, -⟩ := exec_latch_parts i _ u he
      · exact ⟨hlatch, hrem, hcnt⟩
      · exact absurd ⟨_, y, w, hy, hd, (sampleLegal_iff w).1 hl, (pulseBusy_false_iff _).1 hb, rfl⟩ hj
  obtain ⟨hlatch, hrem, hcnt⟩ := hu
  exact ⟨(congrArg State.latch ht).trans hlatch, (congrArg State.pulseRem ht).trans hrem,
    (congrArg State.pulseCnt ht).trans hcnt⟩

/-- Settles O30: the judgement by LATCHED, and no change without one. -/
theorem latchMovesOnlyOnJudgedSamples : Obligations.LatchMovesOnlyOnJudgedSamples := by
  intro s t hp hs
  refine ⟨fun x hj => ?_, fun hj => (step_not_judged hp hs hj).1⟩
  obtain ⟨hlatch, -⟩ := step_judged hp hs hj
  rw [hlatch]
  exact ⟨fun hidle => by rw [hidle, judge_idle_iff], fun hlatched => by rw [hlatched, judge_latched_iff]⟩

/-- PULSE_REM and PULSE_CNT after a cycle of MPX proper, by whether LATCHED goes from 0 to 1 in it. -/
theorem step_pulse {s t : State} (hp : plainCycle s) (hs : step s = .next t) :
    (s.latch = .idle ∧ t.latch = .latched →
      t.pulseRem = BitVec.ofNat 24 s.cfg.pulseTicks ∧ t.pulseCnt = s.pulseCnt + 1) ∧
    (¬ (s.latch = .idle ∧ t.latch = .latched) →
      t.pulseRem = pulseStep s.pulseRem ∧ t.pulseCnt = s.pulseCnt) := by
  by_cases hj : ∃ x, judgesSample s x
  · obtain ⟨x, hj⟩ := hj
    obtain ⟨hlatch, hrem, hcnt⟩ := step_judged hp hs hj
    rw [hlatch, ← triggers_iff, hrem, hcnt]
    exact ⟨fun hf => ⟨if_pos hf, if_pos hf⟩, fun hf => ⟨if_neg hf, if_neg hf⟩⟩
  · obtain ⟨hlatch, hkept⟩ := step_not_judged hp hs hj
    refine ⟨?_, fun _ => hkept⟩
    rintro ⟨hidle, hlatched⟩
    rw [hlatch, hidle] at hlatched
    cases hlatched

/-- Settles O31: `step_pulse`, in numbers. -/
theorem pulseCountCountsTransitions : Obligations.PulseCountCountsTransitions := by
  intro s t hp hs
  obtain ⟨hstart, hgo⟩ := step_pulse hp hs
  constructor
  · intro hmove
    obtain ⟨hrem, hcnt⟩ := hstart hmove
    exact ⟨hcnt, by rw [hrem, toNat_pulseTicks hp.1]⟩
  · intro hstay
    obtain ⟨hrem, hcnt⟩ := hgo hstay
    exact ⟨hcnt, by rw [hrem, pulseStep_toNat]⟩

/-- Settles O32: TICK leaves both registers, and of the commands THRESH_WR and CTRL_WR alone write them. -/
theorem threshAndPwrChangeOnlyByTheirWrites : Obligations.ThreshAndPwrChangeOnlyByTheirWrites := by
  intro s t hp hs
  obtain ⟨u, hend, ht⟩ := step_ends hp hs
  have hthresh : t.thresh = u.thresh := (congrArg State.thresh ht :)
  have hpwr : t.pwr = u.pwr := (congrArg State.pwr ht :)
  have hresp : t.resp = u.resp := (congrArg State.resp ht :)
  rw [hthresh, hpwr, hresp]
  obtain ⟨-, rfl⟩ | ⟨x, i, hx, hd, he⟩ := hend
  · exact ⟨fun hne => absurd (tick_thresh _) hne, fun hne => absurd (tick_pwr _) hne⟩
  · refine ⟨fun hne => ?_, fun hne => ?_⟩
    · obtain hkept | ⟨w, rfl, -, rfl, hokay⟩ := exec_thresh i _ u he
      · exact absurd hkept hne
      · exact ⟨hokay, x, hx, hd⟩
    · obtain hkept | ⟨w, rfl, -, hw, hokay⟩ := exec_pwr i _ u he
      · exact absurd hkept hne
      · exact ⟨hokay, x, w, hx, hd, hw⟩

end Sys2Proof.Machine
end

section
/-! Pulses over a run (43): a pulse lasts PULSE_TICKS cycles (R181, R182), and a sample below the reset
threshold stands between two pulses (R184). -/
open Sys2Proof Sys2Proof.Machine

namespace Sys2Proof.Machine

/-! ### How long a pulse lasts -/

/-- While a pulse is active no sample is judged, so PULSE_REM counts down (43 R176, R181). -/
theorem step_pulseRem_of_busy {s t : State} (hp : plainCycle s) (hs : step s = .next t)
    (hb : s.pulseRem ≠ 0) : t.pulseRem.toNat = s.pulseRem.toNat - 1 := by
  have hno : ¬ ∃ x, judgesSample s x := fun ⟨_, _, _, _, _, _, hzero, _⟩ => hb hzero
  obtain ⟨-, hrem, -⟩ := step_not_judged hp hs hno
  rw [hrem, pulseStep_toNat]

/-- A sample above TRIG_TH in IDLE latches and loads PULSE_REM (43 R175). -/
theorem step_trigger {s t : State} {x : Sample} (hp : plainCycle s) (hs : step s = .next t)
    (hj : judgesSample s x) (hidle : s.latch = .idle)
    (hx : (s.thresh.extractLsb' 16 12).toNat < x.toNat) :
    t.latch = .latched ∧ t.pulseRem.toNat = s.cfg.pulseTicks := by
  obtain ⟨hlatch, -⟩ := step_judged hp hs hj
  have hlatched : t.latch = .latched := by rw [hlatch, hidle, judge_idle_iff]; exact hx
  obtain ⟨hrem, -⟩ := (step_pulse hp hs).1 ⟨hidle, hlatched⟩
  exact ⟨hlatched, by rw [hrem, toNat_pulseTicks hp.1]⟩

/-- `k` cycles into a pulse of `m` cycles. -/
def InPulse (m k : Nat) (t : State) : Prop := k ≤ m → t.pulseRem.toNat = m - k

theorem InPulse.step {m k : Nat} {s t : State} (h : InPulse m k s) (hp : plainCycle s)
    (hs : step s = .next t) : InPulse m (k + 1) t := by
  intro hk
  have hrem : s.pulseRem.toNat = m - k := h (by omega)
  have hb : s.pulseRem ≠ 0 := by bv_omega
  rw [step_pulseRem_of_busy hp hs hb, hrem, Nat.sub_sub]

/-- After a trigger and `n` cycles more, whatever the host does in them, PULSE_REM has counted those. -/
theorem run_of_trigger {s : State} {x : Sample} {n : Nat} (hp : plainCycle s) (hj : judgesSample s x)
    (hidle : s.latch = .idle) (hx : (s.thresh.extractLsb' 16 12).toNat < x.toNat)
    (hn : n ≤ s.cfg.pulseTicks) (hq : quietFor (1 + n) s) :
    ∃ t, RunsTo (1 + n) s t ∧ t.pulseRem.toNat = s.cfg.pulseTicks - n ∧ t.resetDone = true := by
  obtain ⟨u, hs⟩ := step_next s hp.1
  obtain ⟨-, -, -, -, hcfg, hdone, -⟩ := step_plain_scan s u hp hs
  obtain ⟨-, hload⟩ := step_trigger hp hs hj hidle hx
  rw [Nat.add_comm] at hq ⊢
  obtain ⟨t, hrun, hpulse, -, hdone'⟩ := run_quiet (P := InPulse s.cfg.pulseTicks)
    (fun _ _ _ h => h.step) n 0 u (hcfg ▸ hp.1) hdone (quietFor_step n s u hp hs hq) (fun _ => hload)
  exact ⟨t, hrun.head hs, Nat.zero_add n ▸ hpulse (by omega), hdone'⟩

/-- The trigger output is active while PULSE_REM has cycles left (43 R182). -/
theorem logicalOutputs_trig {s : State} (hr : s.resetDone = true) :
    (logicalOutputs s).trig = decide (0 < s.pulseRem.toNat) := by
  rw [logicalOutputs_of_resetDone hr]
  refine (trigOut_eq s).trans (decide_eq_decide.2 ?_)
  bv_omega

/-- Settles O48: PULSE_REM is above 0 in the PULSE_TICKS cycles after the trigger, and 0 in the next. -/
theorem pulseLastsExactlyItsTicks : Obligations.PulseLastsExactlyItsTicks := by
  intro s x hp hj hidle hx
  constructor
  · intro n hn hq
    obtain ⟨t, hrun, hrem, hdone⟩ := run_of_trigger hp hj hidle hx hn.le hq
    exact ⟨t, hrun, by rw [logicalOutputs_trig hdone, hrem, decide_eq_true_iff]; omega⟩
  · intro hq
    obtain ⟨t, hrun, hrem, hdone⟩ := run_of_trigger hp hj hidle hx le_rfl hq
    exact ⟨t, hrun, by simp [logicalOutputs_trig hdone, hrem]⟩

/-! ### What stands between two pulses -/

/-- A cycle in LATCHED judges a sample below RST_TH, or stays in LATCHED and counts no pulse (43 R177). -/
theorem step_of_latched {s t : State} (hp : plainCycle s) (hs : step s = .next t)
    (hl : s.latch = .latched) :
    (∃ x, judgesSample s x ∧ x.toNat < (s.thresh.extractLsb' 0 12).toNat) ∨
      (t.latch = .latched ∧ t.pulseCnt = s.pulseCnt) := by
  obtain ⟨hjudged, hkept⟩ := latchMovesOnlyOnJudgedSamples s t hp hs
  cases ht : t.latch with
  | latched =>
    have hstay : ¬ (s.latch = .idle ∧ t.latch = .latched) := by simp [hl]
    obtain ⟨-, hcnt⟩ := (step_pulse hp hs).2 hstay
    exact .inr ⟨rfl, hcnt⟩
  | idle =>
    have hj : ∃ x, judgesSample s x := by
      by_contra hno
      have hsame := hkept hno
      rw [ht, hl] at hsame
      cases hsame
    obtain ⟨x, hj⟩ := hj
    obtain ⟨-, hrow⟩ := hjudged x hj
    exact .inl ⟨x, hj, (hrow hl).1 ht⟩

/-- Settles O49: along the run the machine stays in LATCHED and counts no pulse, until a step judges such a
sample. -/
theorem pulsesAreSeparatedByALowSample : Obligations.PulsesAreSeparatedByALowSample := by
  intro n
  induction n with
  | zero =>
    intro s t _ _ _ _ hrun hne
    rw [(runsTo_zero s t).1 hrun] at hne
    exact absurd rfl hne
  | succ n ih =>
    intro s t hc hr hl hq hrun hne
    have hp := plainCycle_of_quietFor n s hc hr hq
    obtain ⟨u, hs, hrest⟩ := (runsTo_succ n s t).1 hrun
    obtain ⟨-, -, -, -, hcfg, hdone, -⟩ := step_plain_scan s u hp hs
    obtain ⟨x, hj, hx⟩ | ⟨hlatched, hcnt⟩ := step_of_latched hp hs hl
    · exact ⟨0, s, x, Nat.succ_pos n, (runsTo_zero s s).2 rfl, hj, hx⟩
    · obtain ⟨k, v, x, hk, hv, hlow⟩ := ih u t (hcfg ▸ hc) hdone hlatched
        (quietFor_step n s u hp hs hq) hrest (hcnt ▸ hne)
      exact ⟨k + 1, v, x, Nat.succ_lt_succ hk, hv.head hs, hlow⟩

end Sys2Proof.Machine
end

section
/-! Volts and codes (43 R170): rounding a threshold down to a trigger code, or up to a reset code, does not
change what whole codes it decides, and the clamp to 0..4095 changes it for no code but 4095. -/
open Sys2Proof Sys2Proof.Machine

namespace Sys2Proof.Machine

/-- A value of at least 0 and its clamped code are below the same codes. -/
theorem clampCode_lt_iff {v : Int} {code : Nat} (hv : 0 ≤ v) (hcode : code ≤ 4095) :
    clampCode v < code ↔ v < code := by
  rw [clampCode]
  omega

/-- A value and its clamped code are above the same codes, but for the largest code. -/
theorem lt_clampCode_iff {v : Int} {code : Nat} (hcode : code < 4095) :
    code < clampCode v ↔ (code : Int) < v := by
  rw [clampCode]
  omega

/-- A whole number is below a quotient rounded up exactly when it is below the quotient. -/
theorem lt_neg_neg_ediv_iff {v d x : Int} (hd : 0 < d) : x < -(-v / d) ↔ x * d < v := by
  rw [lt_neg, Int.ediv_lt_iff_lt_mul hd, neg_mul, neg_lt_neg_iff]

/-- Settles O53: the trigger code is the quotient rounded down, the reset code the quotient rounded up. -/
theorem thresholdCodesDecideAsVoltages : Obligations.ThresholdCodesDecideAsVoltages := by
  intro a b p q code hb hp _ hcode
  have hpos : (0 : Int) < b * p := by positivity
  have hvolts : (a : Int) * 4096 * q = (a * (4096 * q) : Nat) := by push_cast; ring
  have hcodes : (code : Int) * (b * p) = (code * p * b : Nat) := by push_cast; ring
  constructor
  · rw [triggerCode, clampCode_lt_iff (Int.ediv_nonneg (by positivity) hpos.le) hcode,
      Int.ediv_lt_iff_lt_mul hpos, hvolts, hcodes, Int.ofNat_lt]
  · intro hlt
    rw [resetCode, lt_clampCode_iff hlt, lt_neg_neg_ediv_iff hpos, hvolts, hcodes, Int.ofNat_lt]

end Sys2Proof.Machine
end

section
/-! Control and status (44): CTRL and STATUS (R200 to R204, R207), every access error (R206), and the sticky
error bits over all the commands (R205, 60 R242). -/
open Sys2Proof Sys2Proof.Machine

namespace Sys2Proof.Machine

/-! ### STATUS_RD and STATUS_WR (44 R203, R204) -/

theorem statusWord_latched (s : State) : (statusWord s).getLsbD 0 = decide (s.latch = .latched) := by
  rw [statusWord, BitVec.getLsbD_append]
  cases hl : s.latch <;> rfl

/-- The bits above LATCHED and PULSE_BUSY are the zeros, ERR, the zeros and PULSE_CNT. -/
theorem statusWord_extractLsb'_of_le (s : State) {start len : Nat} (h : 2 ≤ start) :
    (statusWord s).extractLsb' start len =
      (s.pulseCnt ++ 0#3 ++ s.err ++ 0#6).extractLsb' (start - 2) len := by
  rw [statusWord, BitVec.extractLsb'_append_eq_of_le (by omega), BitVec.extractLsb'_append_eq_of_le (by omega),
    Nat.sub_sub]

theorem statusWord_reservedLow (s : State) : (statusWord s).extractLsb' 2 6 = 0#6 :=
  (statusWord_extractLsb'_of_le s (Nat.le_refl 2)).trans BitVec.extractLsb'_append_eq_right

theorem statusWord_err (s : State) : (statusWord s).extractLsb' 8 5 = s.err := by
  rw [statusWord_extractLsb'_of_le s (by decide), BitVec.extractLsb'_append_eq_of_le (by decide)]
  exact BitVec.extractLsb'_append_eq_right

theorem statusWord_reservedHigh (s : State) : (statusWord s).extractLsb' 13 3 = 0#3 := by
  rw [statusWord_extractLsb'_of_le s (by decide), BitVec.extractLsb'_append_eq_of_le (by decide),
    BitVec.extractLsb'_append_eq_of_le (by decide)]
  exact BitVec.extractLsb'_append_eq_right

theorem statusWord_pulseCnt (s : State) : (statusWord s).extractLsb' 16 16 = s.pulseCnt := by
  rw [statusWord_extractLsb'_of_le s (by decide), BitVec.extractLsb'_append_eq_of_le (by decide),
    BitVec.extractLsb'_append_eq_of_le (by decide)]
  exact BitVec.extractLsb'_append_eq_left

/-- Settles O12: a row of the table, and the word by its fields. -/
theorem statusReadWordByFields : Obligations.StatusReadWordByFields := by
  intro s w
  obtain ⟨-, -, -, -, -, -, -, -, hdecode, -⟩ := legalCommandsDecodeByTheTable w 0
  exact ⟨hdecode, statusWord s, respondData_eq s (statusWord s), statusWord_latched s,
    (statusWord_pulseBusy s).trans (trigOut_eq s), statusWord_reservedLow s, statusWord_err s,
    statusWord_reservedHigh s, statusWord_pulseCnt s⟩

/-- ERR after a STATUS_WR, bit by bit: write 1 to clear. -/
theorem clearErr_clrField_getLsbD (err : BitVec 5) (w : Word) {j : Nat} (hj : j < 5) :
    (clearErr err (clrField w)).getLsbD j = (err.getLsbD j && !w.getLsbD (8 + j)) := by
  simp [clearErr, clrField, hj]

/-- Settles O23: a row of the table, and ERR bit by bit. -/
theorem statusWriteClearsWrittenBits : Obligations.StatusWriteClearsWrittenBits := by
  intro s w
  obtain ⟨-, -, -, -, -, -, -, -, -, hdecode, -⟩ := legalCommandsDecodeByTheTable w 0
  exact ⟨hdecode, clearErr s.err (clrField w), rfl, fun _ => clearErr_clrField_getLsbD s.err w⟩

/-! ### CTRL_WR (44 R200, R207) -/

theorem exec_ctrlWr_legal {s : State} {w : Word} (hl : ctrlLegal w = true) :
    exec (.ctrlWr w) s = .next { tick s with pwr := w.getLsbD 0, resp := some .okay } := if_pos hl

theorem exec_ctrlWr_illegal {s : State} {w : Word} (hl : ¬ ctrlLegal w = true) :
    exec (.ctrlWr w) s = .next { tick s with err := s.err ||| 0b10000#5, resp := some .slverr } := by
  have h : exec (.ctrlWr w) s = reject s .errBus := if_neg hl
  rw [h, reject_eq, setErr_errBus]

/-- Settles O22: the condition is `ctrlLegal`. -/
theorem ctrlWriteSetsPwrOrIsRejected : Obligations.CtrlWriteSetsPwrOrIsRejected := by
  intro s w
  obtain ⟨-, -, -, -, -, -, -, hdecode, -⟩ := legalCommandsDecodeByTheTable w 0
  exact ⟨hdecode, fun hres => exec_ctrlWr_legal ((ctrlLegal_iff w).2 hres),
    fun hres => exec_ctrlWr_illegal (mt (ctrlLegal_iff w).1 hres)⟩

/-! ### Access errors (44 R206) -/

/-- The illegal commands of 30 R75. -/
@[simp] def isIllegal : Instr → Bool
  | .illegalMisaligned1 _ _ _ | .illegalMisaligned2 _ _ _ | .illegalMisaligned3 _ _ _ => true
  | .illegalScanWr _ | .illegalSnapWr _ | .illegalRomWr _ _ => true
  | .illegalUnmapped1C _ _ | .illegalUnmapped20To3C _ _ _ | .illegalUnmapped40To7C _ _ _ => true
  | _ => false

theorem exec_of_isIllegal {i : Instr} (h : isIllegal i = true) (s : State) : exec i s = accessError s := by
  cases i with
  | illegalMisaligned1 | illegalMisaligned2 | illegalMisaligned3 => rfl
  | illegalScanWr | illegalSnapWr | illegalRomWr => rfl
  | illegalUnmapped1C | illegalUnmapped20To3C | illegalUnmapped40To7C => rfl
  | _ => cases h

/-- The condition of 44 R206 speaks of `we` and the offset only. -/
theorem isAccessError_congr {t u : Txn} (hwe : t.we = u.we) (hoff : t.off = u.off) :
    isAccessError t ↔ isAccessError u := by
  rw [isAccessError, isAccessError, hwe, hoff]

/-- The illegal commands are the access errors: the rows of 30 R75 are the condition of 44 R206. -/
theorem isAccessError_txn_iff (i : Instr) : isAccessError i.txn ↔ isIllegal i = true := by
  cases i with simp only [isAccessError, Instr.txn, Txn.ofCmd, Instr.cmd, isIllegal]
  | romRd g | illegalRomWr g => revert g; decide
  | illegalMisaligned1 we word | illegalMisaligned2 we word | illegalMisaligned3 we word =>
    revert we word; decide
  | illegalUnmapped1C we => revert we; decide
  | illegalUnmapped20To3C we word | illegalUnmapped40To7C we word => revert we word; decide
  | _ => decide

/-- Settles O2: the transaction decodes to a command of its `we` and offset, which is illegal. -/
theorem accessErrorsSetErrBusAndNothingElse : Obligations.AccessErrorsSetErrBusAndNothingElse := by
  intro t s ht hr
  obtain ⟨i, hd, -, hwe, hoff, -⟩ := decodedInstructionKeepsItsTransaction t
  have hi : isIllegal i = true := (isAccessError_txn_iff i).1 ((isAccessError_congr hwe hoff).2 ht)
  rw [runCycle_txn t i s hr hd, exec_of_isIllegal hi, accessError_eq, setErr_errBus]

/-! ### The sticky error bits (10 R33, 44 R205, 60 R242) -/

/-- Bit j of ERR is STATUS bit 8 + j (10 R33). -/
theorem setErr_getLsbD (err : BitVec 5) (e : ErrBit) {j : Nat} (hj : j < 5) :
    (setErr err e).getLsbD j = true ↔ j + 8 = e.statusBit ∨ err.getLsbD j = true := by
  have hmask : e.mask.getLsbD j = true ↔ j + 8 = e.statusBit := by
    revert j
    cases e <;> decide
  rw [setErr, BitVec.getLsbD_or, Bool.or_eq_true, hmask, or_comm]

/-- The events of 60 R242, in terms of the checks that the commands make. -/
theorem setsErrorBit_iff (i : Instr) (s : State) (j : Nat) :
    setsErrorBit i s j ↔
      (j = 0 ∧ ∃ w, i = .frameWr w ∧ ¬ frameLegal s.cfg w = true) ∨
      (j = 1 ∧ ∃ w, i = .threshWr w ∧ ¬ threshLegal w = true) ∨
      (j = 2 ∧ ∃ w, i = .sampleWr w ∧ ¬ sampleLegal w = true) ∨
      (j = 3 ∧ ∃ w, i = .sampleWr w ∧ sampleLegal w = true ∧ s.pulseBusy = true) ∨
      (j = 4 ∧ ((∃ w, i = .ctrlWr w ∧ ¬ ctrlLegal w = true) ∨ isIllegal i = true)) := by
  simp only [setsErrorBit, isAccessError_txn_iff, frameLegal_iff, threshLegal_iff, sampleLegal_iff,
    ctrlLegal_iff, pulseBusy_true_iff, not_and_or, not_forall, not_lt, not_exists, exists_prop,
    Option.eq_none_iff_forall_ne_some, ne_eq]

/-- ERR after a command other than STATUS_WR: as before, or with the one bit set whose event occurred
(60 R241). -/
theorem exec_err {i : Instr} {s t : State} (h : exec i s = .next t) (hi : ∀ w, i ≠ .statusWr w) :
    (t.err = s.err ∧ ∀ j, ¬ setsErrorBit i s j) ∨
    (∃ e, t.err = setErr s.err e ∧ ∀ j, setsErrorBit i s j ↔ j + 8 = e.statusBit) := by
  cases i with
  | statusWr w => exact absurd rfl (hi w)
  | frameWr w | threshWr w | ctrlWr w =>
    simp only [exec, execFrameWr, execThreshWr, execCtrlWr, reject_eq] at h
    split at h <;> rename_i hl <;> cases h
    · exact .inl ⟨tick_err s, fun j => by simp [setsErrorBit_iff, hl]⟩
    · exact .inr ⟨_, rfl, fun j => by simp [setsErrorBit_iff, hl, ErrBit.statusBit]⟩
  | sampleWr w =>
    simp only [exec, execSampleWr, reject_eq] at h
    split at h <;> rename_i hl
    · split at h <;> rename_i hb <;> cases h
      · exact .inr ⟨.smpDrop, rfl, fun j => by simp [setsErrorBit_iff, hl, hb, ErrBit.statusBit]⟩
      · exact .inl ⟨tick_err s, fun j => by simp [setsErrorBit_iff, hl, hb]⟩
    · cases h
      exact .inr ⟨.errSample, rfl, fun j => by simp [setsErrorBit_iff, hl, ErrBit.statusBit]⟩
  | frameRd | threshRd | sampleRd | ctrlRd | statusRd | scanRd | snapRd | romRd =>
    cases h
    exact .inl ⟨tick_err s, fun j => by simp [setsErrorBit_iff]⟩
  | _ =>
    cases h
    exact .inr ⟨.errBus, rfl, fun j => by simp [setsErrorBit_iff, ErrBit.statusBit]⟩

/-- Settles O27: STATUS_WR clears, and any other command sets the bit of its event. -/
theorem errorBitsFollowTheirEvents : Obligations.ErrorBitsFollowTheirEvents := by
  intro i s t j hj h
  by_cases hi : ∃ w, i = .statusWr w
  · obtain ⟨w, rfl⟩ := hi
    cases h
    simp [setsErrorBit_iff, clearErr_clrField_getLsbD s.err w hj]
  · have hkeeps : ¬ ∃ w, i = .statusWr w ∧ w.getLsbD (8 + j) = true := fun ⟨w, hw, _⟩ => hi ⟨w, hw⟩
    obtain ⟨hkept, hnone⟩ | ⟨e, hset, hevent⟩ := exec_err h (not_exists.1 hi)
    · simp [hkept, hnone, hkeeps]
    · rw [hset, setErr_getLsbD s.err e hj, hevent]
      simp [hkeeps]

end Sys2Proof.Machine
end

section
/-! The host's frames (48): what a packed frame holds slot by slot (10 R23), and that MPX accepts the words of
the reference converter (R222) and of the ID screen (R227). -/
open Sys2Proof Sys2Proof.Machine

namespace Sys2Proof.Machine

/-! ### The slots of a packed frame (10 R23) -/

/-- The six bits of each slot of a packed frame. -/
theorem extractLsb'_packFrame (s0 s1 s2 s3 s4 : BitVec 6) :
    (packFrame s0 s1 s2 s3 s4).extractLsb' 0 6 = s0 ∧ (packFrame s0 s1 s2 s3 s4).extractLsb' 6 6 = s1 ∧
      (packFrame s0 s1 s2 s3 s4).extractLsb' 12 6 = s2 ∧ (packFrame s0 s1 s2 s3 s4).extractLsb' 18 6 = s3 ∧
      (packFrame s0 s1 s2 s3 s4).extractLsb' 24 6 = s4 := by
  have skip {n : Nat} (hi : BitVec n) (lo : BitVec 6) (start : Nat) :
      (hi ++ lo).extractLsb' (start + 6) 6 = hi.extractLsb' start 6 :=
    BitVec.extractLsb'_append_eq_of_le (Nat.le_add_left 6 start)
  refine ⟨BitVec.extractLsb'_append_eq_right, ?_, ?_, ?_, ?_⟩
  · exact (skip _ _ 0).trans BitVec.extractLsb'_append_eq_right
  · exact (skip _ _ 6).trans <| (skip _ _ 0).trans BitVec.extractLsb'_append_eq_right
  · exact (skip _ _ 12).trans <| (skip _ _ 6).trans <| (skip _ _ 0).trans BitVec.extractLsb'_append_eq_right
  · exact (skip _ _ 18).trans <| (skip _ _ 12).trans <| (skip _ _ 6).trans BitVec.extractLsb'_append_eq_left

theorem glyphOf_of_slot {f : Frame} {k : Nat} {g : Glyph} {dp : Bool}
    (h : f.extractLsb' (6 * k) 6 = slot g dp) : glyphOf f k = g := by
  calc glyphOf f k = (f.extractLsb' (6 * k) 6).extractLsb' 0 5 := by
        ext i hi
        simp [glyphOf, show i < 6 by omega]
    _ = g := by rw [h]; exact BitVec.extractLsb'_append_eq_right

theorem dpOf_of_slot {f : Frame} {k : Nat} {g : Glyph} {dp : Bool}
    (h : f.extractLsb' (6 * k) 6 = slot g dp) : dpOf f k = dp := by
  calc dpOf f k = (f.extractLsb' (6 * k) 6).getLsbD 5 := by simp [dpOf]
    _ = dp := by rw [h, slot, BitVec.getLsbD_append]; simp

/-- Slot by slot, a packed frame has the glyph codes it was packed from. -/
@[simp] theorem glyphOf_packFrame (g0 g1 g2 g3 g4 : Glyph) (d0 d1 d2 d3 d4 : Bool) :
    let f := packFrame (slot g0 d0) (slot g1 d1) (slot g2 d2) (slot g3 d3) (slot g4 d4)
    glyphOf f 0 = g0 ∧ glyphOf f 1 = g1 ∧ glyphOf f 2 = g2 ∧ glyphOf f 3 = g3 ∧ glyphOf f 4 = g4 := by
  obtain ⟨h0, h1, h2, h3, h4⟩ :=
    extractLsb'_packFrame (slot g0 d0) (slot g1 d1) (slot g2 d2) (slot g3 d3) (slot g4 d4)
  exact ⟨glyphOf_of_slot h0, glyphOf_of_slot h1, glyphOf_of_slot h2, glyphOf_of_slot h3, glyphOf_of_slot h4⟩

/-- Slot by slot, a packed frame has the decimal-point flags it was packed from. -/
@[simp] theorem dpOf_packFrame (g0 g1 g2 g3 g4 : Glyph) (d0 d1 d2 d3 d4 : Bool) :
    let f := packFrame (slot g0 d0) (slot g1 d1) (slot g2 d2) (slot g3 d3) (slot g4 d4)
    dpOf f 0 = d0 ∧ dpOf f 1 = d1 ∧ dpOf f 2 = d2 ∧ dpOf f 3 = d3 ∧ dpOf f 4 = d4 := by
  obtain ⟨h0, h1, h2, h3, h4⟩ :=
    extractLsb'_packFrame (slot g0 d0) (slot g1 d1) (slot g2 d2) (slot g3 d3) (slot g4 d4)
  exact ⟨dpOf_of_slot h0, dpOf_of_slot h1, dpOf_of_slot h2, dpOf_of_slot h3, dpOf_of_slot h4⟩

/-- A packed frame is valid when each of its five glyph codes is. -/
theorem frameValid_packFrame {c : Config} {g0 g1 g2 g3 g4 : Glyph} (d0 d1 d2 d3 d4 : Bool)
    (h0 : c.validGlyph g0 = true) (h1 : c.validGlyph g1 = true) (h2 : c.validGlyph g2 = true)
    (h3 : c.validGlyph g3 = true) (h4 : c.validGlyph g4 = true) :
    frameValid c (packFrame (slot g0 d0) (slot g1 d1) (slot g2 d2) (slot g3 d3) (slot g4 d4)) = true := by
  simp [frameValid, List.range_succ, h0, h1, h2, h3, h4]

/-! ### The word of a frame (41 R121) -/

@[simp] theorem frameField_frameWord (f : Frame) : frameField (frameWord f) = f := by
  rw [frameField, frameWord, BitVec.extractLsb'_setWidth_of_le (by decide)]
  exact BitVec.extractLsb'_eq_self

@[simp] theorem frameReservedClear_frameWord (f : Frame) : frameReservedClear (frameWord f) = true := by
  rw [frameReservedClear, frameWord, beq_iff_eq]
  ext i hi
  simp

/-- MPX accepts the word of any frame of valid glyph codes, and stores that frame. -/
theorem exec_frameWr_frameWord {s : State} {f : Frame} (h : frameValid s.cfg f = true) :
    exec (.frameWr (frameWord f)) s = .next { tick s with frame := f, resp := some .okay } := by
  have hl : frameLegal s.cfg (frameWord f) = true := by simp [frameLegal, h]
  rw [exec_frameWr_legal hl, frameField_frameWord]

/-! ### The glyph codes of a legal ROM (40 R101) -/

theorem validGlyph_digit {c : Config} (hc : c.legal = true) {d : Nat} (hd : d < 10) :
    c.validGlyph (BitVec.ofNat 5 d) = true := by
  obtain ⟨-, -, -, -, -, -, -, -, -, hdigits, -⟩ := c.legal_iff.1 hc
  exact (c.validGlyph_iff _).2 (hdigits d hd)

theorem validGlyph_allOff {c : Config} (hc : c.legal = true) : c.validGlyph 31 = true := by
  obtain ⟨-, -, -, -, -, -, -, -, -, -, -, h31⟩ := c.legal_iff.1 hc
  exact (c.validGlyph_iff 31).2 ⟨_, h31⟩

/-- The letters I and d and the colon (40 R102). -/
theorem validGlyph_idLabel {c : Config} (hrom : c.segRom = referenceRom) :
    c.validGlyph 10 = true ∧ c.validGlyph 11 = true ∧ c.validGlyph 12 = true := by
  simp only [Config.validGlyph, Config.rom, hrom]
  decide

/-! ### The converter and the ID screen (48 R222, R227) -/

theorem milliVolts_le (num : Int) (den : Nat) : milliVolts num den ≤ 9999 := by
  rw [milliVolts]
  omega

theorem frameValid_convertFrame {c : Config} (hc : c.legal = true) {n : Nat} (hn : n ≤ 9999) :
    frameValid c (convertFrame n) = true :=
  frameValid_packFrame _ _ _ _ _ (validGlyph_digit hc (by omega)) (validGlyph_digit hc (by omega))
    (validGlyph_allOff hc) (validGlyph_digit hc (by omega)) (validGlyph_digit hc (by omega))

/-- The digits shown are those of N: each is below 10, so its glyph code holds it whole. -/
theorem convertFrame_digits {n : Nat} (hn : n ≤ 9999) :
    (glyphOf (convertFrame n) 0).toNat * 1000 + (glyphOf (convertFrame n) 1).toNat * 100 +
      (glyphOf (convertFrame n) 3).toNat * 10 + (glyphOf (convertFrame n) 4).toNat = n := by
  simp only [convertFrame, digitSlot, glyphOf_packFrame, BitVec.toNat_ofNat]
  omega

theorem glyphOf_convertFrame_two (n : Nat) : glyphOf (convertFrame n) 2 = 31 := by
  simp only [convertFrame, digitSlot, glyphOf_packFrame]

theorem dpOf_convertFrame (n : Nat) {k : Nat} (hk : k < 5) : dpOf (convertFrame n) k = decide (k = 0) := by
  interval_cases k <;> simp [convertFrame, digitSlot]

theorem frameValid_idFrame {c : Config} (hc : c.legal = true) (hrom : c.segRom = referenceRom) {d : Nat}
    (hd : d < 10) :
    frameValid c (packFrame (slot 10 false) (slot 11 false) (slot 12 false) (slot 31 false)
      (digitSlot d false)) = true := by
  obtain ⟨hI, hD, hcolon⟩ := validGlyph_idLabel hrom
  exact frameValid_packFrame _ _ _ _ _ hI hD hcolon (validGlyph_allOff hc) (validGlyph_digit hc hd)

/-- Settles O54: every glyph code the host packs is valid, and the digits of N are below 10. -/
theorem hostReferenceFramesAreAccepted : Obligations.HostReferenceFramesAreAccepted := by
  intro s num den d hc
  have hn := milliVolts_le num den
  refine ⟨exec_frameWr_frameWord (frameValid_convertFrame hc hn),
    ⟨convertFrame_digits hn, glyphOf_convertFrame_two _, fun _ => dpOf_convertFrame _⟩, fun hrom hd => ?_⟩
  exact ⟨_, exec_frameWr_frameWord (frameValid_idFrame hc hrom hd), rfl, by simp [digitSlot]⟩

end Sys2Proof.Machine
end

section
/-! Rejected transactions (60 R241): a command answered SLVERR is a rejection with the bit of its cause
(60 R242), and with nothing else. -/
open Sys2Proof Sys2Proof.Machine

namespace Sys2Proof.Machine

/-- The bit of ERR that a cause sets, by its position (10 R33). -/
theorem mask_eq_twoPow (e : ErrBit) : e.mask = BitVec.twoPow 5 (e.statusBit - 8) := by
  cases e <;> decide

theorem statusBit_sub_eight_lt (e : ErrBit) : e.statusBit - 8 < 5 := by
  cases e <;> decide

/-- SMP_DROP is bit 3 of ERR (10 R33). -/
theorem statusBit_sub_eight_eq_three_iff (e : ErrBit) : e.statusBit - 8 = 3 ↔ e = .smpDrop := by
  cases e <;> decide

/-- What can answer SLVERR: a rejection, with the error bit whose event the command is. A sample dropped
during a pulse is no rejection, since its response is OKAY (43 R176). -/
theorem exec_slverr {i : Instr} {s t : State} (h : exec i s = .next t) (hr : t.resp = some .slverr) :
    ∃ e, e ≠ .smpDrop ∧ exec i s = reject s e ∧ setsErrorBit i s (e.statusBit - 8) := by
  simp only [setsErrorBit_iff]
  cases i with
  | frameWr w =>
    by_cases hl : frameLegal s.cfg w = true
    · cases (exec_frameWr_legal hl).symm.trans h
      cases hr
    · exact ⟨.errFrame, by decide, if_neg hl, .inl ⟨rfl, w, rfl, hl⟩⟩
  | threshWr w =>
    by_cases hl : threshLegal w = true
    · cases (exec_threshWr_legal hl).symm.trans h
      cases hr
    · exact ⟨.errThresh, by decide, if_neg hl, .inr (.inl ⟨rfl, w, rfl, hl⟩)⟩
  | sampleWr w =>
    by_cases hl : sampleLegal w = true
    · have hfield := (sampleLegal_iff w).1 hl
      by_cases hb : s.pulseRem = 0
      · cases (exec_sampleWr_accepted hfield hb).symm.trans h
        cases hr
      · cases (exec_sampleWr_busy hfield hb).symm.trans h
        cases hr
    · exact ⟨.errSample, by decide, if_neg hl, .inr (.inr (.inl ⟨rfl, w, rfl, hl⟩))⟩
  | ctrlWr w =>
    by_cases hl : ctrlLegal w = true
    · cases (exec_ctrlWr_legal hl).symm.trans h
      cases hr
    · exact ⟨.errBus, by decide, if_neg hl, .inr (.inr (.inr (.inr ⟨rfl, .inl ⟨w, rfl, hl⟩⟩)))⟩
  | frameRd | threshRd | sampleRd | ctrlRd | statusRd | statusWr | scanRd | snapRd | romRd =>
    cases h
    cases hr
  | _ => exact ⟨.errBus, by decide, exec_of_isIllegal rfl s, .inr (.inr (.inr (.inr ⟨rfl, .inr rfl⟩)))⟩

/-- Settles O26: the bit is that of the rejection's cause, and TICK is all else that happens. -/
theorem rejectedTransactionIsPrecise : Obligations.RejectedTransactionIsPrecise := by
  intro i s t h hr
  obtain ⟨e, hne, hreject, hset⟩ := exec_slverr h hr
  refine ⟨e.statusBit - 8, statusBit_sub_eight_lt e, mt (statusBit_sub_eight_eq_three_iff e).1 hne, hset, ?_⟩
  rw [hreject, reject_eq, setErr, mask_eq_twoPow] at h
  cases h
  rfl

end Sys2Proof.Machine
end

section
/-! The host's list (30 R79): what all of its next entries are, the next one is, an IDLE cycle standing for
the empty list, and the entries after a cycle are too. -/
open Sys2Proof Sys2Proof.Machine

namespace Sys2Proof.Machine

theorem hostNext_of_take {P : HostOp → Prop} {n : Nat} {s : State} (hidle : P (.cycle false none))
    (h : ∀ op ∈ s.host.take (n + 1), P op) : P (hostNext s) := by
  cases hh : s.host with
  | nil =>
    rw [hostNext, hh]
    exact hidle
  | cons op rest =>
    rw [hostNext, hh]
    exact h op (by simp [hh])

/-- A WAITPULSE that goes on leaves the list as it is. -/
theorem waitPulse_cons_tail {s : State} (hn : hostNext s = .waitPulse) : .waitPulse :: s.host.tail = s.host := by
  cases hh : s.host with
  | nil => simp [hostNext, hh] at hn
  | cons op rest =>
    rw [hostNext, hh] at hn
    exact congrArg (· :: rest) hn.symm

theorem forall_take_of_host {P : HostOp → Prop} {n : Nat} {s t : State}
    (ht : t.host = s.host.tail ∨ t.host = s.host) (h : ∀ op ∈ s.host.take (n + 1), P op) :
    ∀ op ∈ t.host.take n, P op := by
  intro op hop
  obtain ht | ht := ht <;> rw [ht] at hop
  · rw [← List.drop_one, List.take_drop] at hop
    exact h op (Nat.add_comm 1 n ▸ List.mem_of_mem_drop hop)
  · exact h op (List.take_subset_take_left _ (Nat.le_succ n) hop)

end Sys2Proof.Machine
end

section
/-! The reset frame on display (70 R262): it lights no segment, and with BLANK_TICKS = 1 the first cycle after
reset ends in the snapshot edge, so that frame stays on display for a sweep. -/
open Sys2Proof Sys2Proof.Machine

namespace Sys2Proof.Machine

/-- Every slot of the reset frame is the all-off sentinel without a decimal point (10 R36, 40 R101). -/
theorem segOut_of_resetFrame {s : State} (hc : s.cfg.legal = true) (hi : s.idx.toNat ≤ 4)
    (hsnap : s.snap = 0x1F7DF7DF) : segOut s = 0 := by
  cases hp : s.phase with
  | blank => exact segOut_blank hp
  | drive =>
    have hslots : ∀ k < 5, glyphOf 0x1F7DF7DF k = 31 ∧ dpOf 0x1F7DF7DF k = false := by decide
    obtain ⟨hglyph, hdp⟩ := hslots s.idx.toNat (Nat.lt_succ_of_le hi)
    obtain ⟨-, -, -, -, -, -, -, -, -, -, -, hoff⟩ := s.cfg.legal_iff.1 hc
    rw [segOut_drive hp hi (by rw [hsnap, hglyph, hoff]), hsnap, hdp]
    rfl

/-- With BLANK_TICKS = 1, cycle 0 after reset ends in a snapshot edge (42 R153). -/
theorem snapshotEdge_resetWith {c : Config} (hb : c.blankTicks = 1) (host : List HostOp) :
    snapshotEdge (State.resetWith c host) = true := by
  rw [snapshotEdge_iff_sweepCycle]
  simp [sweepCycle, State.resetWith, phaseStart, hb]

/-- That edge takes the reset frame, whatever is written in cycle 0, and the next one is a sweep away. -/
theorem snap_in_first_sweep {c : Config} {host : List HostOp} {n : Nat} {t : State} (hc : c.legal = true)
    (hb : c.blankTicks = 1) (hn : n ≤ c.sweepTicks) (hq : quietFor n (State.resetWith c host))
    (hrun : RunsTo n (State.resetWith c host) t) : t.snap = 0x1F7DF7DF := by
  cases n with
  | zero => rw [← (runsTo_zero _ t).1 hrun]; rfl
  | succ m =>
    have hp := plainCycle_of_quietFor m _ hc rfl hq
    obtain ⟨u, hs, hrest⟩ := (runsTo_succ m _ t).1 hrun
    obtain ⟨hsnap, hphase, hcnt, hidx⟩ := step_snapshotEdge hp hs (snapshotEdge_resetWith hb host)
    obtain ⟨-, -, -, -, hcfg, hdone, -⟩ := step_plain_scan _ u hp hs
    have hinv : u.Inv := everyStepKeepsTheInvariant _ u ⟨hc, fun _ => resetWith_reachableInv hc host⟩ hs
    have hm : m < u.cfg.sweepTicks := by rw [hcfg]; exact hn
    obtain ⟨hkept, -⟩ := oneFrameIsShownThroughoutASweep u hinv hdone hphase hcnt hidx
    obtain ⟨t', hrun', hsame⟩ := hkept m hm (quietFor_step m _ u hp hs hq)
    rw [hrest.unique hrun', hsame, hsnap]
    rfl

/-- Settles O47: the reset frame is on display up to cycle T_SWEEP, and it lights no segment. -/
theorem firstSweepAfterResetIsBlank : Obligations.FirstSweepAfterResetIsBlank := by
  intro c host n hc hb hn hq
  obtain ⟨t, hrun, hsweep, hdone⟩ := run_inSweep (s := State.resetWith c host) hc rfl rfl rfl rfl hq
  have hsnap := snap_in_first_sweep hc hb hn hq hrun
  refine ⟨t, hrun, hsnap, ?_⟩
  rw [logicalOutputs_of_resetDone hdone]
  exact segOut_of_resetFrame (hsweep.cfg ▸ hc) hsweep.idx_le hsnap

end Sys2Proof.Machine
end

section
/-! Hazards of the threshold latch (70): a sample written during a pulse is lost (R267), and no sample
triggers until the host has written THRESH (R263). -/
open Sys2Proof Sys2Proof.Machine

namespace Sys2Proof.Machine

/-- Settles O50: in each of those cycles PULSE_REM has counts left, so the sample is dropped. -/
theorem samplesInThePulseAreDropped : Obligations.SamplesInThePulseAreDropped := by
  intro s x n w hp hj hidle hx hn hq hl
  obtain ⟨t, hrun, hrem, -⟩ := run_of_trigger hp hj hidle hx hn.le hq
  have hb : t.pulseRem ≠ 0 := by bv_omega
  exact ⟨t, dropSample t, hrun, exec_sampleWr_busy hl hb, tick_latch t, tick_lastSample t, tick_pulseCnt t, rfl,
    (setErr_getLsbD t.err .smpDrop (by decide)).2 (.inl rfl)⟩

/-! ### The reset thresholds -/

/-- THRESH keeps its value in a cycle that presents no THRESH_WR (43 R171). -/
theorem step_thresh {s t : State} (hp : plainCycle s) (hs : step s = .next t)
    (hno : presentsNoThreshWr (hostNext s)) : t.thresh = s.thresh := by
  obtain ⟨hwrite, -⟩ := threshAndPwrChangeOnlyByTheirWrites s t hp hs
  by_contra hne
  obtain ⟨-, x, hx, hd⟩ := hwrite hne
  exact hno x t.thresh hx hd

/-- The thresholds are those of reset, and no pulse has been emitted. -/
structure Untriggered (s : State) : Prop where
  thresh : s.thresh = 0x0FFF0000
  latch : s.latch = .idle
  pulseRem : s.pulseRem = 0
  pulseCnt : s.pulseCnt = 0

/-- TRIG_TH is 4095 at reset, which no sample of 12 bits exceeds (43 R175). -/
theorem Untriggered.step_latch {s t : State} (h : Untriggered s) (hp : plainCycle s) (hs : step s = .next t) :
    t.latch = .idle := by
  obtain ⟨hjudged, hkept⟩ := latchMovesOnlyOnJudgedSamples s t hp hs
  by_cases hj : ∃ x, judgesSample s x
  · obtain ⟨x, hj⟩ := hj
    obtain ⟨hrow, -⟩ := hjudged x hj
    have hle : ¬ x.toNat > (s.thresh.extractLsb' 16 12).toNat := by
      rw [h.thresh]
      exact Nat.not_lt.2 (Nat.le_of_lt_succ x.isLt)
    exact Latch.ne_latched_iff.1 (mt (hrow h.latch).1 hle)
  · exact (hkept hj).trans h.latch

theorem Untriggered.step {s t : State} (h : Untriggered s) (hp : plainCycle s) (hs : step s = .next t)
    (hno : presentsNoThreshWr (hostNext s)) : Untriggered t := by
  have hlatch := h.step_latch hp hs
  obtain ⟨hrem, hcnt⟩ := (step_pulse hp hs).2 (by simp [hlatch])
  exact ⟨(step_thresh hp hs hno).trans h.thresh, hlatch, by rw [hrem, h.pulseRem]; rfl, hcnt.trans h.pulseCnt⟩

/-- `k` cycles into a run of `m` cycles in which the host presents no THRESH_WR. -/
def UntriggeredRun (m k : Nat) (s : State) : Prop :=
  k ≤ m → Untriggered s ∧ ∀ op ∈ s.host.take (m - k), presentsNoThreshWr op

theorem UntriggeredRun.step {m k : Nat} {s t : State} (h : UntriggeredRun m k s) (hp : plainCycle s)
    (hs : step s = .next t) : UntriggeredRun m (k + 1) t := by
  intro hk
  obtain ⟨hu, hno⟩ := h (Nat.le_of_succ_le hk)
  rw [show m - k = m - (k + 1) + 1 by omega] at hno
  have hnext := hostNext_of_take (by simp [presentsNoThreshWr, HostOp.presents]) hno
  exact ⟨hu.step hp hs hnext, host_take_step _ s t hp hs hno⟩

/-- Settles O51: no cycle of the run can trigger, since THRESH has its reset value in all of them. -/
theorem resetThresholdNeverTriggers : Obligations.ResetThresholdNeverTriggers := by
  intro c host n hc hq hno
  have hstart : UntriggeredRun n 0 (State.resetWith c host) := fun _ => ⟨⟨rfl, rfl, rfl, rfl⟩, hno⟩
  obtain ⟨t, hrun, hend, -⟩ := run_quiet (fun _ _ _ h => h.step) n 0 _ hc rfl hq hstart
  obtain ⟨⟨-, hlatch, hrem, hcnt⟩, -⟩ := hend (Nat.zero_add n).le
  exact ⟨t, hrun, hlatch, hrem, hcnt⟩

end Sys2Proof.Machine
end

section
/-! A register's read in the cycle after its accepted write (70 R268, 20 R59): since the reserved bits of the
write were 0, its fields hold the whole word. -/
open Sys2Proof Sys2Proof.Machine

namespace Sys2Proof.Machine

/-- A word whose high bits are 0 is its low field zero-extended. -/
theorem setWidth_extractLsb'_of_high_zero {w : Word} {n k : Nat} (hk : n + k = 32)
    (h : w.extractLsb' n k = 0#k) : (w.extractLsb' 0 n).setWidth 32 = w := by
  refine BitVec.eq_of_getLsbD_eq fun i hi => ?_
  rw [BitVec.getLsbD_setWidth, BitVec.getLsbD_extractLsb', Nat.zero_add]
  obtain hlow | hhigh := Nat.lt_or_ge i n
  · simp [hi, hlow]
  · have hbit : (w.extractLsb' n k).getLsbD (i - n) = false := by rw [h, BitVec.getLsbD_zero]
    rw [BitVec.getLsbD_extractLsb', Nat.add_sub_cancel' hhigh] at hbit
    have hin : i - n < k := by omega
    simpa [hin, Nat.not_lt.2 hhigh] using hbit.symm

theorem frameWord_frameField {w : Word} (h : w.extractLsb' 30 2 = 0#2) : frameWord (frameField w) = w :=
  setWidth_extractLsb'_of_high_zero rfl h

/-- PWR zero-extended is the word of an accepted CTRL_WR (44 R200). -/
theorem setWidth_pwrField {w : Word} (h : w.extractLsb' 1 31 = 0#31) :
    (BitVec.ofBool (pwrField w)).setWidth 32 = w := by
  have hbit : BitVec.ofBool (pwrField w) = w.extractLsb' 0 1 := by
    refine BitVec.eq_of_getLsbD_eq fun i hi => ?_
    obtain rfl : i = 0 := by omega
    simp [pwrField]
  rw [hbit]
  exact setWidth_extractLsb'_of_high_zero rfl h

theorem frameWord_of_frameWr_okay {s t : State} {w : Word} (he : exec (.frameWr w) s = .next t)
    (hr : t.resp = some .okay) : frameWord t.frame = w := by
  by_cases hl : frameLegal s.cfg w = true
  · cases (exec_frameWr_legal hl).symm.trans he
    exact frameWord_frameField ((frameLegal_iff s.cfg w).1 hl).1
  · cases (exec_frameWr_illegal hl).symm.trans he
    cases hr

theorem thresh_of_threshWr_okay {s t : State} {w : Word} (he : exec (.threshWr w) s = .next t)
    (hr : t.resp = some .okay) : t.thresh = w := by
  by_cases hl : threshLegal w = true
  · cases (exec_threshWr_legal hl).symm.trans he
    rfl
  · cases (exec_threshWr_illegal hl).symm.trans he
    cases hr

theorem ctrlWord_of_ctrlWr_okay {s t : State} {w : Word} (he : exec (.ctrlWr w) s = .next t)
    (hr : t.resp = some .okay) : ctrlWord t = w := by
  by_cases hl : ctrlLegal w = true
  · cases (exec_ctrlWr_legal hl).symm.trans he
    exact setWidth_pwrField ((ctrlLegal_iff w).1 hl)
  · cases (exec_ctrlWr_illegal hl).symm.trans he
    cases hr

theorem sampleWord_of_sampleWr_okay {s t : State} {w : Word} (he : exec (.sampleWr w) s = .next t)
    (hr : t.resp = some .okay) (hb : s.pulseRem = 0) : sampleWord t = w := by
  by_cases hl : w.extractLsb' 12 20 = 0#20
  · cases (exec_sampleWr_accepted hl hb).symm.trans he
    exact setWidth_extractLsb'_of_high_zero rfl hl
  · cases (exec_sampleWr_malformed hl).symm.trans he
    cases hr

/-- Settles O25: each register's word is the written one, and a read answers with it. -/
theorem writeThenReadReturnsTheWord : Obligations.WriteThenReadReturnsTheWord := by
  intro s t w hr
  refine ⟨fun he => ?_, fun he => ?_, fun he => ?_, fun he hb => ?_⟩
  · exact ⟨_, respondData_eq t (frameWord t.frame), by rw [frameWord_of_frameWr_okay he hr]⟩
  · exact ⟨_, respondData_eq t t.thresh, by rw [thresh_of_threshWr_okay he hr]⟩
  · exact ⟨_, respondData_eq t (ctrlWord t), by rw [ctrlWord_of_ctrlWr_okay he hr]⟩
  · exact ⟨_, respondData_eq t (sampleWord t), by rw [sampleWord_of_sampleWr_okay he hr hb]⟩

end Sys2Proof.Machine
end

section
/-! Reset and power (70 R260, R261, 60 R253): a reset edge gives every element its value, and nothing but a
reset edge ends the unspecified state. -/
open Sys2Proof Sys2Proof.Machine

namespace Sys2Proof.Machine

/-- Settles O34: the state after the edge is the one of 10 R36, which stands in BLANK without a pulse. -/
theorem resetEdgeGivesTheResetValues : Obligations.ResetEdgeGivesTheResetValues := by
  intro s txn hc hn
  refine ⟨resetEdge (hostTaken s), step_reset s txn hc hn, rfl, rfl, rfl, rfl, rfl, rfl, rfl, rfl, rfl, rfl, rfl,
    rfl, rfl, rfl, rfl, rfl, ?_⟩
  rw [logicalOutputs_of_resetDone rfl, dselOut_blank rfl, segOut_blank rfl, trigOut_eq]
  rfl

/-! ### Before the first reset edge -/

/-- An entry of the host's list that is no reset cycle. -/
def HostOp.noReset (op : HostOp) : Prop := ∀ txn, op ≠ .cycle true txn

/-- What such an entry ends in is before the reset still, and a WAITPULSE may go on. -/
theorem runHostOp_noReset {op : HostOp} {s t : State} (hop : op.noReset) (hr : s.resetDone = false)
    (h : runHostOp op s = .next t) :
    t.resetDone = false ∧ (t.host = s.host ∨ (op = .waitPulse ∧ t.host = .waitPulse :: s.host)) := by
  cases op with
  | cycle rst txn =>
    cases rst with
    | true => exact absurd rfl (hop txn)
    | false =>
      rw [runHostOp, runCycle_unspecified txn s hr] at h
      cases h; exact ⟨rfl, .inl rfl⟩
  | waitPulse =>
    simp only [runHostOp, pollCycle, runCycle_unspecified _ s hr] at h
    split at h
    · cases h; exact ⟨rfl, .inr ⟨rfl, rfl⟩⟩
    · cases h; exact ⟨rfl, .inl rfl⟩
  | powerCycle => cases h; exact ⟨rfl, .inl rfl⟩

theorem step_noReset {s t : State} (hs : step s = .next t) (hr : s.resetDone = false)
    (hno : (hostNext s).noReset) : t.resetDone = false ∧ (t.host = s.host.tail ∨ t.host = s.host) := by
  rw [step_eq s (legal_of_step_next hs)] at hs
  obtain ⟨hr', hhost⟩ := runHostOp_noReset (s := hostTaken s) hno hr hs
  refine ⟨hr', hhost.imp_right fun hwait => ?_⟩
  obtain ⟨hn, ht⟩ := hwait
  exact ht.trans (waitPulse_cons_tail hn)

/-- Any number of entries without a reset cycle leaves the machine before its first reset edge. -/
theorem run_noReset {n : Nat} {s : State} (hc : s.cfg.legal = true) (hr : s.resetDone = false)
    (hno : ∀ op ∈ s.host.take n, op.noReset) : ∃ t, RunsTo n s t ∧ t.resetDone = false := by
  induction n generalizing s with
  | zero => exact ⟨s, (runsTo_zero s s).2 rfl, hr⟩
  | succ n ih =>
    obtain ⟨u, hs⟩ := step_next s hc
    obtain ⟨hru, hhost⟩ := step_noReset hs hr (hostNext_of_take (by simp [HostOp.noReset]) hno)
    obtain ⟨t, hrun, hrt⟩ := ih (step_cfg hs ▸ hc) hru (forall_take_of_host hhost hno)
    exact ⟨t, hrun.head hs, hrt⟩

/-- Settles O36: power loss leads to the unspecified state, and each entry but a reset cycle keeps it. -/
theorem onlyAResetCycleEndsTheUnspecifiedState : Obligations.OnlyAResetCycleEndsTheUnspecifiedState := by
  intro s hc
  exact ⟨fun hn => ⟨_, step_powerCycle s hc hn, rfl⟩, fun hr _ hno => run_noReset hc hr hno⟩

end Sys2Proof.Machine
end
